-- ==== Sys2Proof/Word.lean ====
section
/-! DEFINITION. The word types of the CG4820 (addresses, words, bytes), the number types of its numbered things
(initiators, sources, windows, panels, tags), and replacement of one element of a fixed table. -/

namespace Sys2Proof

/-- One byte of the link or of the control region. -/
abbrev Byte := BitVec 8

/-- A 16-bit field. -/
abbrev Half := BitVec 16

/-- A 4-byte word: a pixel value, a control word, wall time in µs. -/
abbrev Word := BitVec 32

/-- A link address (40 bits). -/
abbrev Address := BitVec 40

/-- An initiator number, 0 to 15; 15 is the part itself (R2). -/
abbrev Initiator := Fin 16

/-- A source id, 0 to 31. -/
abbrev SourceId := Fin 32

/-- A window id, 0 to 63. -/
abbrev WindowId := Fin 64

/-- A panel number, 0 to 31. -/
abbrev PanelId := Fin 32

/-- One of the part's own tags, 0 to 31 (R16). -/
abbrev Tag := Fin 32

/-- An event ring slot or index, counted modulo 256 (R165). -/
abbrev Slot := BitVec 8

/-- The table `v` with its entry `i` replaced by `x`. -/
def put {α : Type} {n : Nat} (v : Vector α n) (i : Fin n) (x : α) : Vector α n :=
  v.set i.val x i.isLt

@[simp] theorem put_self {α : Type} {n : Nat} (v : Vector α n) (i : Fin n) (x : α) :
    (put v i x)[i] = x := by
  simp [put]

theorem put_of_ne {α : Type} {n : Nat} (v : Vector α n) (i j : Fin n) (x : α) (h : i ≠ j) :
    (put v i x)[j] = v[j] := by
  have hne : i.val ≠ j.val := fun e => h (Fin.ext e)
  simp [put, Vector.getElem_set_ne i.isLt j.isLt hne]

end Sys2Proof
end

