-- ==== Sys2Proof/Syntax.lean ====
section
/-! DEFINITION. The commands of the CG4820: one constructor for each row of spec/opcode_table.json, with its operands. -/

namespace Sys2Proof

/-- The direction of a link transaction (R2). -/
inductive Kind where
  | read
  | write
deriving DecidableEq, Repr

/-- A transaction of the frame store link, with the fields of R2. `data` and `strobes` belong to a WRITE and have one
element for each byte. -/
structure Txn where
  kind : Kind
  initiator : Initiator
  linkTag : Byte
  address : Address
  length : Nat
  data : List Byte
  strobes : List Bool
deriving DecidableEq, Repr

/-- The status of a response (R3). -/
inductive Status where
  | done
  | fault
deriving DecidableEq, Repr

/-- A response on the link (R3); `data` belongs to a READ answered DONE. -/
structure Response where
  initiator : Initiator
  linkTag : Byte
  status : Status
  data : List Byte
deriving DecidableEq, Repr

/-- Who writes a control word: the initiator and the link tag of the transaction that carries it. -/
structure Sender where
  initiator : Initiator
  linkTag : Byte
deriving DecidableEq, Repr

/-- The geometry words of a source record (R34), as a console writes them. -/
structure ApertureWords where
  base : Address
  pitch : Half
  frameWidth : Half
  frameHeight : Half
deriving DecidableEq, Repr

/-- The commands of the block. The first five are transactions that arrive at the ingest port: the part itself sorts a
transaction into its class when it takes it (R4, R5), so these rows differ in the class their sender expects. The rows
from `enableRequest` to `interruptEnableWrite` are control writes of one console whose words the row fixes (R172); any
other mixture of words is a `controlWrite`. The rest are events at the store port, at the pins and of the part's own
timers and channels. -/
inductive Instr where
  /-- MALFORMED (R4). -/
  | malformed (t : Txn)
  /-- PASS (R6). -/
  | pass (t : Txn)
  /-- SCANOUT_READ (R30). -/
  | scanoutRead (t : Txn)
  /-- APERTURE_WRITE (R7). -/
  | apertureWrite (t : Txn)
  /-- CONTROL_WRITE (R152). -/
  | controlWrite (t : Txn)
  /-- ENABLE_REQUEST (R36): the enable word of a source with enable set, alone or in one write with the geometry words. -/
  | enableRequest (from_ : Sender) (source : SourceId) (geometry : Option ApertureWords) (live copy : Bool)
  /-- SOURCE_DISABLE (R39): the enable word of a source with enable clear. -/
  | sourceDisable (from_ : Sender) (source : SourceId) (live copy : Bool)
  /-- CLAIM (R156). -/
  | claim (from_ : Sender) (window : WindowId)
  /-- RELEASE (R156). -/
  | release (from_ : Sender) (window : WindowId)
  /-- SEIZE (R156). -/
  | seize (from_ : Sender) (window : WindowId)
  /-- COMMIT (R104), with its sequence number and commit number. -/
  | commit (from_ : Sender) (sequence number : Half)
  /-- RUN (R160). -/
  | run (from_ : Sender) (sequence : Half)
  /-- SETUP (R161). -/
  | setup (from_ : Sender) (sequence : Half)
  /-- WALL_RESET (R162). -/
  | wallReset (from_ : Sender) (sequence : Half)
  /-- WRST_PULSE (R162). -/
  | wrstPulse
  /-- CANCEL_FILLS (R131). -/
  | cancelFills (from_ : Sender) (sequence : Half)
  /-- RELEASE_FAILOVER (R147, R159), with its window argument. -/
  | releaseFailover (from_ : Sender) (sequence argument : Half)
  /-- UNKNOWN_COMMAND (R159): a command code that names no command. -/
  | unknownCommand (from_ : Sender) (sequence : Half) (code : Byte) (argument : Half)
  /-- CONSUMER_INDEX_WRITE (R166). -/
  | consumerIndexWrite (from_ : Sender) (value : Word)
  /-- INDICATOR_DEFINITION_WRITE (R149): both words of one line's definition. -/
  | indicatorDefinitionWrite (from_ : Sender) (line : Fin 4) (mask : Word) (all invert : Bool)
  /-- BUCKET_THRESHOLD_WRITE (R135). -/
  | bucketThresholdWrite (from_ : Sender) (source : SourceId) (threshold : Half)
  /-- INTERRUPT_ENABLE_WRITE (R167). -/
  | interruptEnableWrite (from_ : Sender) (enable : Bool)
  /-- RESPONSE_RELAY (R3): a store-port response for an initiator 0 to 14. -/
  | responseRelay (r : Response)
  /-- STORE_RESPONSE (R17): a store-port response for initiator 15, with its link tag. -/
  | storeResponse (linkTag : Byte) (status : Status)
  /-- STORE_OPPORTUNITY (R14). -/
  | storeOpportunity
  /-- STORE_TIMEOUT (R18) of one tag. -/
  | storeTimeout (tag : Tag)
  /-- SYNC_LIMIT_EXPIRY (R32) of one panel. -/
  | syncLimitExpiry (panel : PanelId)
  /-- SWITCH_LIMIT_EXPIRY (R113). -/
  | switchLimitExpiry
  /-- CADENCE_TICK (R137). -/
  | cadenceTick
  /-- STALE_LIMIT_EXPIRY (R141) of one source. -/
  | staleLimitExpiry (source : SourceId)
  /-- FILL_ENTRY_START (R126). -/
  | fillEntryStart
  /-- FILL_ENTRY_COMPLETE (R129). -/
  | fillEntryComplete
  /-- PONRST_ASSERT (R164). -/
  | ponrstAssert
  /-- PONRST_RELEASE (R164), with the levels the BASE and PRIO straps have at that moment. -/
  | ponrstRelease (baseStrap : Byte) (prioStrap : Initiator)
deriving DecidableEq, Repr

end Sys2Proof
end

