-- ==== Sys2Proof/Decode.lean ====
section
/-! DEFINITION. The command a word of table bits spells. The CG4820 fetches no instructions, and no row of
spec/opcode_table.json gives any bits, so no word spells a command: a command reaches the block through its queue. -/

namespace Sys2Proof

/-- The rows of the opcode table that give bits, as (mask, pattern, command): none. -/
def tableRows : List (Nat × Nat × Instr) := []

/-- The command that the `nbits` low bits of `w` spell by the table's bits. -/
def decodeTableWord (nbits w : Nat) : Option Instr :=
  (tableRows.find? fun row => (w % 2 ^ nbits) &&& row.1 == row.2.1).map fun row => row.2.2

end Sys2Proof
end

