-- ==== Sys2Proof/Machine/Bits.lean ====
section
/-! DEFINITION. Bit fields and byte order: all multi-byte fields of the control region are little-endian (R172). -/

namespace Sys2Proof.Machine

/-- Byte `i` of a word, byte 0 the lowest. -/
def byteOf (w : Word) (i : Nat) : Byte := w.extractLsb' (8 * i) 8

/-- The word whose bytes are these, the lowest first. -/
def wordOf (b0 b1 b2 b3 : Byte) : Word := b3 ++ b2 ++ b1 ++ b0

/-- The field of `len` bits of a word from bit `lo` on, as a number. -/
def field (w : Word) (lo len : Nat) : Nat := (w.extractLsb' lo len).toNat

/-- The four bytes of a word in memory order. -/
def wordBytes (w : Word) : List Byte := [byteOf w 0, byteOf w 1, byteOf w 2, byteOf w 3]

/-- The two bytes of a half in memory order. -/
def halfBytes (h : Half) : List Byte := [h.extractLsb' 0 8, h.extractLsb' 8 8]

/-- A byte with this number in it. -/
def byteNat (n : Nat) : Byte := BitVec.ofNat 8 n

/-- A byte that is 1 where the flag is set and 0 where it is not. -/
def byteFlag (b : Bool) : Byte := if b then 1 else 0

/-- A half with this number in it. -/
def halfNat (n : Nat) : Half := BitVec.ofNat 16 n

/-- A word with this number in it. -/
def wordNat (n : Nat) : Word := BitVec.ofNat 32 n

/-- An id field of a posted word or event: an absent window or item is written as 0xFF (R172). -/
def idOrAbsent (o : Option Nat) : Nat := o.getD 255

/-- µs from `start` to `now`, modulo 2^32 (R18, R32, R113). -/
def elapsedMicros (now start : Word) : Nat := (now - start).toNat

end Sys2Proof.Machine
end

