-- ==== Sys2Proof/Config.lean ====
section
/-! DEFINITION. What the CG4820's manual fixes as numbers, and the free values: constants with no body, for what the
manual leaves open while the part goes on. -/

namespace Sys2Proof.Config

/-- Records the Expansion Queue holds at most (R89). -/
def queueCapacity : Nat := 256
/-- Queued records one source may have at most (R91). -/
def shareLimit : Nat := 64
/-- Transactions the pass-through FIFO holds at most (R10). -/
def fifoCapacity : Nat := 16
/-- Entries the Exposure Fill List holds at most (R119). -/
def exposureCapacity : Nat := 128
/-- Entries the Marking List holds at most (R120). -/
def markingCapacity : Nat := 64
/-- The highest pending-fill count (R63). -/
def fillCountLimit : Nat := 64
/-- Unread event records at which a further event is dropped (R165). -/
def unreadLimit : Nat := 255
/-- The period of the Cadence Monitor's tick in µs (R137). -/
def tickMicros : Nat := 64
/-- The sync limit in µs (R32). -/
def syncLimit : Nat := 200000
/-- Bytes of the control region (R172). -/
def controlBytes : Nat := 65536
/-- The unit of the BASE straps: 64 MiB (R172). -/
def strapUnit : Nat := 67108864
/-- One more than the highest address (40 bits). -/
def addressSpace : Nat := 1099511627776
/-- Where cadence counts saturate (R137). -/
def cadenceTop : Nat := 65535

/-- FREE VALUE. Of two actions whose order the manual leaves open (R44, R45, R141, R124, the wall reset, and two kinds of
event for one window), whether the first-named is taken first; a fresh bit for each such moment, by the count of those
before it (log entries 1 and 33). -/
opaque eitherOrder : Nat → Bool

/-- FREE VALUE. Which of several initiators whose next transaction can be taken is taken first (log entry 2). -/
opaque pick : Nat → Nat

/-- FREE VALUE. What the refusal reason byte of the commit status word shows while the commit state is not REFUSED (R103
posts the refusal only while it is, and no reason has an absent value; log entry 3). -/
opaque emptyReason : BitVec 8

/-- FREE VALUE. What the owner initiator field of a posted owner word shows while its window is FREE and has no owner
(R155, R157; log entry 34). -/
opaque freeOwnerInitiator : BitVec 4

/-- FREE VALUE. What the priority flag of a posted owner word shows while its window is FREE (R155, R157; log entry
34). -/
opaque freeOwnerPriority : Bool

/-- FREE VALUE. The sequence number field of a WALL_RESET event whose cause is the WRST pin (R162; log entry 4). -/
opaque pinSequence : BitVec 32

end Sys2Proof.Config
end

