-- ==== Sys2Proof/Machine/State.lean ====
section
/-! DEFINITION. The state of the CG4820, block by block, as plain data, and the state after a power-on reset. -/

namespace Sys2Proof.Machine

/-! ## Modes, sources and cadence -/

/-- The two modes of the part (R160, R161). -/
inductive Mode where
  | setup
  | run
deriving DecidableEq, Repr

/-- The aperture geometry of a source: the working aperture latched at enable (R35), or the shadowed fields (R34). -/
structure Aperture where
  base : Nat
  pitch : Nat
  frameWidth : Nat
  frameHeight : Nat
deriving DecidableEq, Repr

/-- The class of a source (R46). -/
inductive SourceClass where
  | stallable
  | live
deriving DecidableEq, Repr

/-- The aperture mode of a source (R47). -/
inductive ApertureMode where
  | divert
  | copy
deriving DecidableEq, Repr

/-- The cadence states (R136). -/
inductive CadenceState where
  | disabled
  | awaiting
  | learning
  | live
  | stale
  | recovering
deriving DecidableEq, Repr

/-- A cadence record (R136): baseline B, bucket, low count, elapsed count, good count and recovery frames. -/
structure Cadence where
  state : CadenceState
  baseline : Nat
  bucket : Int
  lowCount : Nat
  elapsed : Nat
  goodCount : Nat
  recoveryFrames : Nat
deriving DecidableEq, Repr

/-- A record in the given state with everything else 0: what R136 calls zero. -/
def Cadence.zeroed (c : CadenceState) : Cadence :=
  { state := c, baseline := 0, bucket := 0, lowCount := 0, elapsed := 0, goodCount := 0, recoveryFrames := 0 }

/-! ## Wall geometry and panels -/

/-- A panel record (R24). -/
structure PanelRecord where
  base : Nat
  pitch : Nat
  scanout : Nat
deriving DecidableEq, Repr

/-- The six geometry fields and the 32 panel records (R21, R24), shadowed or working (R25). -/
structure Geometry where
  columns : Nat
  rows : Nat
  panelWidth : Nat
  panelHeight : Nat
  bezelX : Nat
  bezelY : Nat
  panels : Vector PanelRecord 32
deriving DecidableEq, Repr

/-- The sync states of a panel (R28). -/
inductive SyncState where
  | unsynced
  | scanning
  | waiting
deriving DecidableEq, Repr

/-- A panel's sync record (R28). -/
structure SyncRecord where
  state : SyncState
  lastRead : Word
deriving DecidableEq, Repr

/-! ## Windows and layouts -/

/-- The states of a window (R52). -/
inductive WindowState where
  | unused
  | hidden
  | shown
  | frozen
deriving DecidableEq, Repr

/-- The failover modes of a window (R50). `off` is the manual's NONE. -/
inductive FailoverMode where
  | off
  | auto
  | notify
deriving DecidableEq, Repr

/-- The fields every window record has (R50). `alternate` is none where it is absent. -/
structure Window where
  state : WindowState
  layer : Nat
  primary : Nat
  alternate : Option Nat
  mode : FailoverMode
  revert : Bool
  cx : Nat
  cy : Nat
  cw : Nat
  ch : Nat
  dx : Nat
  dy : Nat
  dw : Nat
  dh : Nat
  fill : Word
deriving DecidableEq, Repr

/-- The power-on value of a window record (R50). -/
def Window.blank : Window :=
  { state := .unused, layer := 0, primary := 0, alternate := none, mode := .off, revert := false,
    cx := 0, cy := 0, cw := 0, ch := 0, dx := 0, dy := 0, dw := 0, dh := 0, fill := 0 }

/-- A window record of NEXT or ACTIVE: the window's fields and its effective source (R58). -/
structure LayoutRecord where
  window : Window
  effective : Nat
deriving DecidableEq, Repr

/-- The power-on value of an ACTIVE record (R50). -/
def LayoutRecord.blank : LayoutRecord := { window := Window.blank, effective := 0 }

/-- A layout copy that carries an epoch: ACTIVE or NEXT (R54). -/
structure Layout where
  records : Vector LayoutRecord 64
  epoch : Half
deriving DecidableEq, Repr

/-- Which copy a panel uses (R56). -/
inductive Copy where
  | active
  | next
deriving DecidableEq, Repr

/-- A window's gate (R61). -/
inductive Gate where
  | armed
  | opened
deriving DecidableEq, Repr

/-! ## Expansion -/

/-- A pixel with its four strobes, bit j for byte j (R41, R43). -/
structure Pixel where
  value : Word
  strobes : BitVec 4
deriving DecidableEq, Repr

/-- An expansion record (R69). -/
structure Record where
  window : WindowId
  source : SourceId
  panel : PanelId
  epoch : Half
  address : Address
  pixels : List Pixel
deriving DecidableEq, Repr

/-- A source run (R68). -/
structure Run where
  source : SourceId
  line : Nat
  column : Nat
  pixels : List Pixel
  cls : SourceClass
deriving DecidableEq, Repr

/-- A place in expansion order (R83): window id, wall row Y, wall X. -/
structure Position where
  window : Nat
  row : Nat
  col : Nat
deriving DecidableEq, Repr

/-- A held write (R11, R93): the transaction, its run, its waiting record with the place of that record's first pixel,
and whether the working geometry has been latched since the record was made (R85). -/
structure Held where
  txn : Txn
  run : Run
  waiting : Record
  place : Position
  latched : Bool
deriving DecidableEq, Repr

/-! ## The store path -/

/-- The four requesters of the Store Arbiter (R13). -/
inductive Requester where
  | pass
  | expansion
  | fill
  | post
deriving DecidableEq, Repr

/-- The kinds of fill entry (R119, R120). -/
inductive FillKind where
  | resolve
  | border
deriving DecidableEq, Repr

/-- The two fill channels (R125). -/
inductive ChannelId where
  | zero
  | one
deriving DecidableEq, Repr

/-- The origin and subject of an own write (R16). -/
inductive OwnWrite where
  | expansion (window : WindowId) (panel : PanelId)
  | fill (channel : ChannelId) (kind : FillKind) (panel : PanelId)
  | post (offset : Nat)
deriving DecidableEq, Repr

/-- An entry of the Outstanding Store Table (R16). -/
inductive TagState where
  | free
  | busy (issued : Word) (own : OwnWrite)
  | quarantined
deriving DecidableEq, Repr

/-! ## The commit -/

/-- The commit states (R103). -/
inductive CommitState where
  | idle
  | inFlight
  | done
  | refused
  | abandoned
  | forced
deriving DecidableEq, Repr

/-- The refusal of a COMMIT (R105): its window, its reason as the code 1 to 6 of the table's order, the other window. -/
structure CommitRefusal where
  window : WindowId
  reason : Nat
  other : Option WindowId
deriving DecidableEq, Repr

/-- The Commit Controller (R103). `limit` is in ms. -/
structure Commit where
  state : CommitState
  number : Half
  remaining : Nat
  switched : Vector Bool 32
  changed : Vector Bool 64
  late : Nat
  limit : Nat
  limitStart : Word
  refusal : Option CommitRefusal
deriving DecidableEq, Repr

/-! ## The Fill Engine -/

/-- A RESOLVE entry (R119). -/
structure ResolveEntry where
  panel : PanelId
  x : Nat
  y : Nat
  w : Nat
  h : Nat
  epoch : Half
  cause : Option WindowId
  rowsDone : Nat
deriving DecidableEq, Repr

/-- A BORDER entry (R120). Its row range, `lines` panel lines from `firstLine`, is 0 and 0 until the entry starts. -/
structure BorderEntry where
  panel : PanelId
  window : WindowId
  source : SourceId
  firstLine : Nat
  lines : Nat
  rowsDone : Nat
deriving DecidableEq, Repr

/-- One fill write worked out for the row in progress (R127, R129). -/
structure FillWrite where
  panel : PanelId
  address : Address
  count : Nat
  colour : Word
deriving DecidableEq, Repr

/-- The states of a fill channel (R125). -/
inductive ChannelState where
  | idle
  | pending
  | active
deriving DecidableEq, Repr

/-- The ways a channel's most recent entry ended (R125). -/
inductive LastOutcome where
  | complete
  | cancelled
  | fault
  | timeout
deriving DecidableEq, Repr

/-- A fill channel (R125, R129): its state and last outcome, its outstanding writes, whether the head of its list is
its current entry, and the writes of the row in progress that are not yet issued. -/
structure Channel where
  state : ChannelState
  last : LastOutcome
  outstanding : Nat
  current : Bool
  row : List FillWrite
deriving DecidableEq, Repr

/-- A fill channel after a power-on reset (R133). -/
def Channel.powerOn : Channel :=
  { state := .idle, last := .complete, outstanding := 0, current := false, row := [] }

/-! ## Consoles, commands and the Poster -/

/-- An ownership table entry (R155). -/
inductive Owner where
  | free
  | owned (owner : Initiator) (priority : Bool)
deriving DecidableEq, Repr

/-- The outcomes of a command (R159). -/
inductive CommandOutcome where
  | done
  | accepted
  | busy
  | refused
  | forced
  | abandoned
  | geometry
  | notOwner
  | unknown
deriving DecidableEq, Repr

/-- The result of the latest command (R158): the detail is its three bytes in the result word (R172). -/
structure CommandResult where
  sequence : Half
  code : Byte
  outcome : CommandOutcome
  detail : Vector Byte 3
deriving DecidableEq, Repr

/-- A posted item: a status block item, an owner word, or an entry of the active window image (R168, R172). -/
inductive PostItem where
  | mode
  | commit
  | result
  | producer
  | occupancy
  | fills
  | quarantined
  | indicators
  | source (s : SourceId)
  | panel (p : PanelId)
  | owner (w : WindowId)
  | image (w : WindowId)
deriving DecidableEq, Repr

/-- Every posted item, by ascending offset (R172). -/
def allItems : List PostItem :=
  [.mode, .commit, .result, .producer, .occupancy, .fills, .quarantined, .indicators]
    ++ (List.finRange 32).map .source ++ (List.finRange 32).map .panel
    ++ (List.finRange 64).map .owner ++ (List.finRange 64).map .image

/-- An allocated event record (R165, R172). -/
structure EventRecord where
  slot : Slot
  sequence : Half
  kind : Byte
  detail : Byte
  subject : Half
  initiator : Initiator
  time : Word
  extra : Word
deriving DecidableEq, Repr

/-- The two places the Poster offers writes from (R168). -/
inductive PostSource where
  | events
  | items
deriving DecidableEq, Repr

/-- The Event and Status Poster (R165 to R170). `events` is the pending list; `issued` are the slots from the producer
index on whose records have been issued, in slot order, each with whether its write has ended. -/
structure Poster where
  allocation : Slot
  producer : Slot
  events : List EventRecord
  issued : List (Slot × Bool)
  sequence : Half
  overflow : Bool
  dropped : Nat
  flags : List PostItem
  lastItem : Option PostItem
  lastSource : PostSource
deriving DecidableEq, Repr

/-- The exhaustion flag of the TAGS_EXHAUSTED report (R19). -/
inductive ExhaustionFlag where
  | armed
  | spent
deriving DecidableEq, Repr

/-- The shadow of the words software has written in the control region, by byte offset, in canonical form: offsets
strictly rising, no entry equal to the byte's power-on value, which an unlisted offset reads as. -/
abbrev Shadow := List Host.Cell

/-! ## The machine -/

/-- Why a step can stop with a fault: never. Every command of the table has an effect in every state, so no meaning
raises a fault (safe: nothing is claimed of a stop). -/
inductive Fault where
deriving DecidableEq, Repr

/-- Why a command can be refused. -/
inductive Refusal where
  /-- Raised by `exec` for a command that has no meaning yet; no arm raises it. Safe: the run stops. -/
  | notModelled (mnemonic : String)
deriving DecidableEq, Repr

/-- The state of the part. Everything named by a rule stands under the block that holds it; `lines` to `pending` at
the end are the ports' side of the model and the model's own fields. -/
structure State where
  /-- Wall time in µs (R1). -/
  wallTime : Word
  /-- Whether PONRST is asserted (R164). -/
  ponrst : Bool
  /-- The IRQ pin (R167). -/
  irq : Bool
  /-- The pins IND0 to IND3, whose values are also the status word's (R149). -/
  indicators : Vector Bool 4
  /-- The BASE straps as sampled (R164). -/
  baseStrap : Byte
  /-- The PRIO straps as sampled (R164). -/
  prioStrap : Initiator
  /-- The mode (R160, R161). -/
  mode : Mode
  /-- The shadow of the control region, STAGE included (R51, R152). -/
  shadow : Shadow
  /-- The ownership table (R155). -/
  owners : Vector Owner 64
  /-- The result of the latest command (R158). -/
  result : CommandResult
  /-- The working geometry (R25). -/
  geometry : Geometry
  /-- The Panel Sync Monitor's records (R28). -/
  sync : Vector SyncRecord 32
  /-- The working apertures; a source is ENABLED where it has one (R35). -/
  apertures : Vector (Option Aperture) 32
  /-- The cadence records (R136). -/
  cadence : Vector Cadence 32
  /-- The overrun flags, true for SET (R96). -/
  overrun : Vector Bool 32
  /-- ACTIVE (R54). -/
  active : Layout
  /-- NEXT, while it exists (R54). -/
  next : Option Layout
  /-- The epoch counter (R55). -/
  epochCounter : Half
  /-- The layout selection of each panel (R56). -/
  selection : Vector Copy 32
  /-- The epoch of each panel (R56). -/
  panelEpoch : Vector Half 32
  /-- The gates (R61). -/
  gates : Vector Gate 64
  /-- The pending-fill counts (R63). -/
  fillCount : Vector Nat 64
  /-- The Expansion Queue, head first (R89). -/
  queue : List Record
  /-- The hold list, oldest first (R93); its initiators are HOLDING, every other one is TAKING (R9). -/
  holds : List Held
  /-- The pass-through FIFO, head first (R10). -/
  passFifo : List Txn
  /-- The taken transactions that wait for room in the FIFO, in the order they began to wait (R10). -/
  passWait : List Txn
  /-- The requester granted last (R14). -/
  lastGranted : Requester
  /-- The Outstanding Store Table (R16). -/
  tags : Vector TagState 32
  /-- The exhaustion flag (R19). -/
  exhaustion : ExhaustionFlag
  /-- The Commit Controller (R103). -/
  commit : Commit
  /-- The Exposure Fill List, head first (R119). -/
  exposure : List ResolveEntry
  /-- The Marking List, head first (R120). -/
  marking : List BorderEntry
  /-- Fill channel 0 (R125). -/
  channel0 : Channel
  /-- Fill channel 1 (R125). -/
  channel1 : Channel
  /-- The Event and Status Poster (R165). -/
  poster : Poster
  /-- Each initiator's transactions that wait at the ingest port, first come first (R9). -/
  lines : Vector (List Txn) 16
  /-- The model's own: every response given at the ingest port, oldest first (R3). -/
  ingestOut : List Response
  /-- The model's own: every transaction issued at the store port, oldest first (R15). -/
  storeOut : List Txn
  /-- The model's own: how many free choices have been made (log entries 1 and 2). -/
  choices : Nat
  /-- The model's own: the commands that wait for the block, first in, first out. -/
  pending : List Instr
deriving DecidableEq, Repr

/-- The geometry after a power-on reset (R25). -/
def Geometry.powerOn : Geometry :=
  { columns := 1, rows := 1, panelWidth := 1920, panelHeight := 1080, bezelX := 0, bezelY := 0,
    panels := Vector.replicate 32 { base := 0, pitch := 7680, scanout := 15 } }

/-- The Commit Controller after a power-on reset (R103). The limit items have no value there (log entry 9). -/
def Commit.powerOn : Commit :=
  { state := .idle, number := 0, remaining := 0, switched := Vector.replicate 32 false,
    changed := Vector.replicate 64 false, late := 0, limit := 100, limitStart := 0, refusal := none }

/-- The Poster after a power-on reset (R170). -/
def Poster.powerOn : Poster :=
  { allocation := 0, producer := 0, events := [], issued := [], sequence := 0, overflow := false, dropped := 0,
    flags := allItems, lastItem := none, lastSource := .events }

/-- The part as it stands when PONRST is released with these strap levels (R164 and every chapter's power-on values). -/
def State.powerOn (baseStrap : Byte) (prioStrap : Initiator) : State :=
  { wallTime := 0
    ponrst := false
    irq := false
    indicators := Vector.replicate 4 false
    baseStrap := baseStrap
    prioStrap := prioStrap
    mode := .setup
    shadow := []
    owners := Vector.replicate 64 .free
    result := { sequence := 0, code := 0, outcome := .done, detail := Vector.replicate 3 0 }
    geometry := Geometry.powerOn
    sync := Vector.replicate 32 { state := .unsynced, lastRead := 0 }
    apertures := Vector.replicate 32 none
    cadence := Vector.replicate 32 (Cadence.zeroed .disabled)
    overrun := Vector.replicate 32 false
    active := { records := Vector.replicate 64 LayoutRecord.blank, epoch := 0 }
    next := none
    epochCounter := 0
    selection := Vector.replicate 32 .active
    panelEpoch := Vector.replicate 32 0
    gates := Vector.replicate 64 .armed
    fillCount := Vector.replicate 64 0
    queue := []
    holds := []
    passFifo := []
    passWait := []
    lastGranted := .post
    tags := Vector.replicate 32 .free
    exhaustion := .armed
    commit := Commit.powerOn
    exposure := []
    marking := []
    channel0 := Channel.powerOn
    channel1 := Channel.powerOn
    poster := Poster.powerOn
    lines := Vector.replicate 16 []
    ingestOut := []
    storeOut := []
    choices := 0
    pending := [] }

/-- The machine right after reset: the power-on state with all straps at 0, which the manual leaves to the board (log
entry 8). -/
def State.reset : State := State.powerOn 0 0

end Sys2Proof.Machine
end

