-- ==== Sys2Proof/Machine/Settings.lean ====
section
/-! DEFINITION. The shadow of the control region as a byte memory in canonical form, and the fields software writes in
it, each read as the part takes it (R22 to R24, R34, R50, R51, R135, R148, R154, R171, R172). -/

namespace Sys2Proof.Machine

/-! ## Power-on values -/

/-- The power-on word at an offset of the wall settings (R22, R154, R170). -/
def wallPowerOn (off : Nat) : Word :=
  match off with
  | 0x00 => 1
  | 0x04 => 1
  | 0x08 => 1920
  | 0x0C => 1080
  | 0x18 => 0x7FFF
  | 0x20 => 0xFFFFD000
  | 0x24 => 8
  | 0x28 => 2000
  | 0x2C => 100
  | 0x30 => 0xFFFFFFFF
  | _ => 0

/-- The power-on word at an offset of a panel record (R24). -/
def panelPowerOn (off : Nat) : Word :=
  match off with
  | 0x8 => 7680
  | 0xC => 15
  | _ => 0

/-- The power-on word at an offset of a source record (R34, R135). -/
def sourcePowerOn (off : Nat) : Word :=
  match off with
  | 0x08 => 7680
  | 0x0C => 1920
  | 0x10 => 1080
  | 0x18 => 31250
  | 0x1C => 15625
  | 0x20 => 32
  | 0x24 => 32
  | 0x28 => 0x03030808
  | _ => 0

/-- The shadowed word at a word offset after a power-on reset (R164). Words no layout names start as 0 (log entry 7). -/
def powerOnWord (off : Nat) : Word :=
  if off < 0x100 then wallPowerOn off
  else if 0x800 ≤ off ∧ off < 0xA00 then panelPowerOn (off % 16)
  else if 0x1000 ≤ off ∧ off < 0x1800 then sourcePowerOn (off % 64)
  else 0

/-- The shadowed byte at an offset after a power-on reset: what an offset the shadow does not list reads as. -/
def powerOnByte (off : Nat) : Byte := byteOf (powerOnWord (off / 4 * 4)) (off % 4)

/-! ## The shadow as a memory -/

/-- The byte at an offset. -/
def shadowRead : Shadow → Nat → Byte
  | [], a => powerOnByte a
  | (k, b) :: rest, a => if k = a then b else shadowRead rest a

/-- The shadow with one byte written, in canonical form again. -/
def shadowWrite : Shadow → Nat → Byte → Shadow
  | [], a, b => if b = powerOnByte a then [] else [(a, b)]
  | (k, c) :: rest, a, b =>
    if a < k then
      if b = powerOnByte a then (k, c) :: rest else (a, b) :: (k, c) :: rest
    else if a = k then
      if b = powerOnByte a then rest else (a, b) :: rest
    else (k, c) :: shadowWrite rest a b

/-- Whether offsets rise strictly from `low` on and no entry equals its power-on value. -/
def shadowWfFrom : Nat → Shadow → Bool
  | _, [] => true
  | low, (k, c) :: rest => decide (low ≤ k) && !(c == powerOnByte k) && shadowWfFrom (k + 1) rest

/-- The canonical form of the shadow. -/
def shadowWf (m : Shadow) : Bool := shadowWfFrom 0 m

/-- The word at an offset. -/
def shadowWord (m : Shadow) (off : Nat) : Word :=
  wordOf (shadowRead m off) (shadowRead m (off + 1)) (shadowRead m (off + 2)) (shadowRead m (off + 3))

/-- The shadow with these bytes written from an offset on. -/
def shadowWriteBytes : Shadow → Nat → List Byte → Shadow
  | m, _, [] => m
  | m, off, b :: rest => shadowWriteBytes (shadowWrite m off b) (off + 1) rest

/-! ## Wall settings -/

/-- A number in bits 15:0 of a word of the shadow. -/
def halfField (m : Shadow) (off : Nat) : Nat := field (shadowWord m off) 0 16

/-- A 40-bit base in two words (R172). -/
def baseField (m : Shadow) (off : Nat) : Nat :=
  field (shadowWord m off) 0 32 + field (shadowWord m (off + 4)) 0 8 * 2 ^ 32

/-- The shadowed geometry: the six fields and the 32 panel records (R22, R24). -/
def shadowGeometry (m : Shadow) : Geometry :=
  { columns := halfField m 0x00
    rows := halfField m 0x04
    panelWidth := halfField m 0x08
    panelHeight := halfField m 0x0C
    bezelX := halfField m 0x10
    bezelY := halfField m 0x14
    panels := Vector.ofFn fun p : Fin 32 =>
      { base := baseField m (0x800 + 16 * p.val)
        pitch := halfField m (0x808 + 16 * p.val)
        scanout := field (shadowWord m (0x80C + 16 * p.val)) 0 4 } }

/-- The background colour (R22). -/
def backgroundColour (m : Shadow) : Word := shadowWord m 0x1C

/-- The stale colour (R22). -/
def staleColour (m : Shadow) : Word := shadowWord m 0x20

/-- The border width as taken: 1 to 64 (R23). -/
def borderWidth (m : Shadow) : Nat := min 64 (max 1 (halfField m 0x24))

/-- The store timeout as taken, in µs: 0 to 99 as 100 (R18, R23). -/
def storeTimeout (m : Shadow) : Nat := max 100 (halfField m 0x28)

/-- The switch limit as taken, in ms: 10 to 1000 (R23). -/
def switchLimit (m : Shadow) : Nat := min 1000 (max 10 (halfField m 0x2C))

/-- Whether the event mask enables a kind: bit k for kind k (R165, R172). -/
def eventEnabled (m : Shadow) (kind : Nat) : Bool := (shadowWord m 0x30).getLsbD kind

/-- The interrupt enable (R167). -/
def interruptEnabled (m : Shadow) : Bool := (shadowWord m 0x34).getLsbD 0

/-- The consumer index: the low 8 bits of the word at 0x0400 (R166). -/
def consumerIndex (m : Shadow) : Slot := shadowRead m 0x400

/-- An indicator line's source mask (R148). -/
def indicatorMask (m : Shadow) (line : Fin 4) (s : SourceId) : Bool :=
  (shadowWord m (0x40 + 8 * line.val)).getLsbD s.val

/-- Whether an indicator line's operator is ALL (R148). -/
def indicatorAll (m : Shadow) (line : Fin 4) : Bool := (shadowWord m (0x44 + 8 * line.val)).getLsbD 0

/-- Whether an indicator line is inverted (R148). -/
def indicatorInvert (m : Shadow) (line : Fin 4) : Bool := (shadowWord m (0x44 + 8 * line.val)).getLsbD 1

/-! ## Source records -/

/-- The offset of a source record. -/
def sourceOffset (s : SourceId) : Nat := 0x1000 + 64 * s.val

/-- The shadowed geometry fields of a source (R34). -/
def shadowAperture (m : Shadow) (s : SourceId) : Aperture :=
  { base := baseField m (sourceOffset s)
    pitch := halfField m (sourceOffset s + 0x08)
    frameWidth := halfField m (sourceOffset s + 0x0C)
    frameHeight := halfField m (sourceOffset s + 0x10) }

/-- The enable bit of a source's enable word (R36, R172). -/
def enableBit (m : Shadow) (s : SourceId) : Bool := (shadowWord m (sourceOffset s + 0x14)).getLsbD 0

/-- The class of a source (R46). -/
def sourceClass (m : Shadow) (s : SourceId) : SourceClass :=
  if (shadowWord m (sourceOffset s + 0x14)).getLsbD 1 then .live else .stallable

/-- The aperture mode of a source (R47). -/
def apertureMode (m : Shadow) (s : SourceId) : ApertureMode :=
  if (shadowWord m (sourceOffset s + 0x14)).getLsbD 2 then .copy else .divert

/-- The first-frame limit FL as taken (R135). -/
def firstFrameLimit (m : Shadow) (s : SourceId) : Nat := max 1 (halfField m (sourceOffset s + 0x18))

/-- The stale margin SM as taken (R135). -/
def staleMargin (m : Shadow) (s : SourceId) : Nat := max 1 (halfField m (sourceOffset s + 0x1C))

/-- The hysteresis HY (R135). -/
def hysteresis (m : Shadow) (s : SourceId) : Nat := halfField m (sourceOffset s + 0x20)

/-- The bucket threshold BT as taken (R135). -/
def bucketThreshold (m : Shadow) (s : SourceId) : Nat := max 1 (halfField m (sourceOffset s + 0x24))

/-- The upper noise threshold NT as taken (R135). -/
def upperNoise (m : Shadow) (s : SourceId) : Nat := max 1 (field (shadowWord m (sourceOffset s + 0x28)) 0 8)

/-- The lower noise threshold NNT as taken (R135). -/
def lowerNoise (m : Shadow) (s : SourceId) : Nat := max 1 (field (shadowWord m (sourceOffset s + 0x28)) 8 8)

/-- The low run LR as taken (R135). -/
def lowRun (m : Shadow) (s : SourceId) : Nat := max 1 (field (shadowWord m (sourceOffset s + 0x28)) 16 8)

/-- The recovery count RC as taken (R135). -/
def recoveryCount (m : Shadow) (s : SourceId) : Nat := max 2 (field (shadowWord m (sourceOffset s + 0x28)) 24 8)

/-! ## Window staging records: STAGE (R51) -/

/-- A window state code, an unnamed one read as UNUSED (R51, R171). -/
def windowStateOf (code : Nat) : WindowState :=
  match code with
  | 1 => .hidden
  | 2 => .shown
  | 3 => .frozen
  | _ => .unused

/-- A failover mode code, an unnamed one read as NONE (R51, R171). -/
def failoverModeOf (code : Nat) : FailoverMode :=
  match code with
  | 1 => .auto
  | 2 => .notify
  | _ => .off

/-- The offset of a window's staging record. -/
def stageOffset (w : WindowId) : Nat := 0x2000 + 64 * w.val

/-- The STAGE record of a window (R50, R51, R172). -/
def stageWindow (m : Shadow) (w : WindowId) : Window :=
  let base := stageOffset w
  let w0 := shadowWord m base
  let w1 := shadowWord m (base + 0x04)
  let w2 := shadowWord m (base + 0x08)
  let w3 := shadowWord m (base + 0x0C)
  { state := windowStateOf (field w0 0 8)
    layer := field w0 8 6
    primary := field w0 16 8
    alternate := if w1.getLsbD 8 then some (field w0 24 8) else none
    mode := failoverModeOf (field w1 0 8)
    revert := w1.getLsbD 9
    cx := field w2 0 16
    cy := field w2 16 16
    cw := field w3 0 16
    ch := field w3 16 16
    dx := (shadowWord m (base + 0x10)).toNat
    dy := (shadowWord m (base + 0x14)).toNat
    dw := (shadowWord m (base + 0x18)).toNat
    dh := (shadowWord m (base + 0x1C)).toNat
    fill := shadowWord m (base + 0x20) }

/-- The bytes of the named fields of a staging record at their power-on values, all 0 (R50, R172). -/
def blankStage : List Byte := List.replicate 36 0

/-! ## Consoles -/

/-- Whether an initiator is the priority console; 15 on the straps names none (R154). -/
def isPriority (s : State) (i : Initiator) : Bool := s.prioStrap == i && decide (i.val < 15)

/-- Whether an initiator is a console: its flag is set in the mask as taken (R154). -/
def isConsole (s : State) (i : Initiator) : Bool :=
  isPriority s i || (decide (i.val < 15) && (shadowWord s.shadow 0x18).getLsbD i.val)

/-- The first address of the control region (R172). -/
def controlBase (s : State) : Nat := s.baseStrap.toNat * Config.strapUnit

end Sys2Proof.Machine
end

