-- ==== Sys2Proof/Machine/Flags.lean ====
section
/-! DEFINITION. The posting flags and their items' offsets (R168, R172), the IRQ line (R167), and the state changes
that carry a posting flag with them. -/

namespace Sys2Proof.Machine

/-- The offset of a posted item (R172). -/
def itemOffset : PostItem → Nat
  | .mode => 0x200
  | .commit => 0x208
  | .result => 0x210
  | .producer => 0x218
  | .occupancy => 0x21C
  | .fills => 0x220
  | .quarantined => 0x224
  | .indicators => 0x228
  | .source s => 0x280 + 4 * s.val
  | .panel p => 0x300 + 4 * p.val
  | .owner w => 0x3004 + 8 * w.val
  | .image w => 0x8000 + 4 * w.val

/-- The flagged items with one more, by ascending offset and without repeats. -/
def insertItem (i : PostItem) : List PostItem → List PostItem
  | [] => [i]
  | j :: rest =>
    if itemOffset i < itemOffset j then i :: j :: rest
    else if itemOffset i = itemOffset j then j :: rest
    else j :: insertItem i rest

/-- The Poster with the posting flag of an item set where something it shows has changed. -/
def flaggedIf (changed : Bool) (i : PostItem) (p : Poster) : Poster :=
  { p with flags := if changed then insertItem i p.flags else p.flags }

/-- Set the posting flag of an item where something it shows has changed. -/
def flagIf (changed : Bool) (i : PostItem) (s : State) : State := { s with poster := flaggedIf changed i s.poster }

/-- Set the posting flag of an item. -/
def flag (i : PostItem) (s : State) : State := flagIf true i s

/-- Set the posting flags of several items. -/
def flagAll (items : List PostItem) (s : State) : State := items.foldl (fun s i => flag i s) s

/-! ## IRQ -/

/-- The level of IRQ: high while the interrupt enable is set and P differs from the consumer index; low while PONRST is
asserted (R167). -/
def irqLevel (s : State) : Bool :=
  !s.ponrst && interruptEnabled s.shadow && !(s.poster.producer == consumerIndex s.shadow)

/-- Drive IRQ to its level. -/
def updateIrq (s : State) : State := { s with irq := irqLevel s }

/-! ## State changes that set a posting flag -/

/-- Set a window's gate; a change flags its image entry (R62, R64). -/
def setGate (w : WindowId) (g : Gate) (s : State) : State :=
  flagIf (s.gates[w] != g) (.image w) { s with gates := put s.gates w g }

/-- Arm a window's gate (R61). -/
def armGate (w : WindowId) (s : State) : State := setGate w .armed s

/-- Arm the gates of several windows. -/
def armGates (ws : List WindowId) (s : State) : State := ws.foldl (fun s w => armGate w s) s

/-- Set a window's pending-fill count; a change flags its image entry (R63). -/
def setCount (w : WindowId) (n : Nat) (s : State) : State :=
  flagIf (s.fillCount[w] != n) (.image w) { s with fillCount := put s.fillCount w n }

/-- Set a source's cadence record; a change of state or baseline flags its word (R136). -/
def setCadence (src : SourceId) (c : Cadence) (s : State) : State :=
  flagIf (s.cadence[src].state != c.state || s.cadence[src].baseline != c.baseline) (.source src)
    { s with cadence := put s.cadence src c }

/-- Set or forget a source's working aperture; this flags its word (R38, R39). -/
def setAperture (src : SourceId) (a : Option Aperture) (s : State) : State :=
  flag (.source src) { s with apertures := put s.apertures src a }

/-- Set a panel's sync record; a change of state flags its word (R30, R33). -/
def setSync (p : PanelId) (r : SyncRecord) (s : State) : State :=
  flagIf (s.sync[p].state != r.state) (.panel p) { s with sync := put s.sync p r }

/-- Set a panel's layout selection and epoch; a change flags its word (R56). -/
def setPanelLayout (p : PanelId) (c : Copy) (e : Half) (s : State) : State :=
  flagIf (s.selection[p] != c || s.panelEpoch[p] != e) (.panel p)
    { s with selection := put s.selection p c, panelEpoch := put s.panelEpoch p e }

/-- Set a window's ownership entry; a change flags its owner word (R157). -/
def setOwner (w : WindowId) (o : Owner) (s : State) : State :=
  flagIf (s.owners[w] != o) (.owner w) { s with owners := put s.owners w o }

/-- Set the Commit Controller's items; a change of the state, number, panels remaining or refusal flags its word
(R103). -/
def setCommit (c : Commit) (s : State) : State :=
  flagIf (s.commit.state != c.state || s.commit.number != c.number || s.commit.remaining != c.remaining
      || s.commit.refusal != c.refusal) .commit { s with commit := c }

/-- Record the result of a command and flag its word (R158). -/
def setResult (r : CommandResult) (s : State) : State := flag .result { s with result := r }

/-- Set the mode and flag its word (R160, R161). -/
def setMode (m : Mode) (s : State) : State := flag .mode { s with mode := m }

/-- Replace the Expansion Queue and flag the occupancy word (R102). -/
def setQueue (q : List Record) (s : State) : State := flag .occupancy { s with queue := q }

/-! ## Free choices -/

/-- Take two actions in one of their two orders, as the free value for this moment says (log entry 1). -/
def inEitherOrder (f g : State → State) (s : State) : State :=
  let s' := { s with choices := s.choices + 1 }
  if Config.eitherOrder s.choices then g (f s') else f (g s')

end Sys2Proof.Machine
end

