-- ==== Sys2Proof/Machine/Poster.lean ====
section
/-! DEFINITION. The Event and Status Poster: handing over an event (R165), the producer index (R166), what a posted item
or an event record holds as bytes (R172), and which write is offered next (R168). -/

namespace Sys2Proof.Machine

/-! ## Enumeration codes (R172) -/

/-- The code of a cadence state. -/
def cadenceCode : CadenceState → Nat
  | .disabled => 0
  | .awaiting => 1
  | .learning => 2
  | .live => 3
  | .stale => 4
  | .recovering => 5

/-- The code of a sync state. -/
def syncCode : SyncState → Nat
  | .unsynced => 0
  | .scanning => 1
  | .waiting => 2

/-- The code of a window state. -/
def windowCode : WindowState → Nat
  | .unused => 0
  | .hidden => 1
  | .shown => 2
  | .frozen => 3

/-- The code of a commit state. -/
def commitCode : CommitState → Nat
  | .idle => 0
  | .inFlight => 1
  | .done => 2
  | .refused => 3
  | .abandoned => 4
  | .forced => 5

/-- The code of a command's outcome. -/
def outcomeCode : CommandOutcome → Nat
  | .done => 0
  | .accepted => 1
  | .busy => 2
  | .refused => 3
  | .forced => 4
  | .abandoned => 5
  | .geometry => 6
  | .notOwner => 7
  | .unknown => 8

/-- The code of a channel state. -/
def channelCode : ChannelState → Nat
  | .idle => 0
  | .pending => 1
  | .active => 2

/-- The code of a channel's last outcome. -/
def lastCode : LastOutcome → Nat
  | .complete => 0
  | .cancelled => 1
  | .fault => 2
  | .timeout => 3

/-- The code of a fill kind, as FILL_LOST and the subject of a fill write carry it. -/
def fillKindCode : FillKind → Nat
  | .resolve => 1
  | .border => 2

/-- The code of a mode, as the mode word and MODE_CHANGED carry it. -/
def modeCode : Mode → Nat
  | .setup => 0
  | .run => 1

/-- The code of an own write's origin. -/
def originCode : OwnWrite → Nat
  | .expansion _ _ => 0
  | .fill .zero _ _ => 1
  | .fill .one _ _ => 2
  | .post _ => 3

/-! ## Events -/

/-- What a block hands the Poster: an event's kind and the fields its table row names (R172). -/
structure Event where
  kind : Nat
  detail : Nat
  subject : Nat
  initiator : Initiator
  extra : Word
deriving DecidableEq, Repr

/-- The initiator field of an event the part itself is the cause of. -/
def thePart : Initiator := 15

/-- COMMIT_DONE. -/
def evCommitDone (outcome : CommandOutcome) (number : Half) (late : Nat) (by_ : Initiator) : Event :=
  { kind := 1, detail := outcomeCode outcome, subject := number.toNat, initiator := by_, extra := wordNat late }

/-- COMMIT_REFUSED. -/
def evCommitRefused (number : Half) (r : CommitRefusal) (by_ : Initiator) : Event :=
  { kind := 2, detail := r.reason, subject := number.toNat, initiator := by_
    extra := wordOf (byteNat r.window.val) (byteNat (idOrAbsent (r.other.map (·.val)))) 0 0 }

/-- COMMIT_ABANDONED. -/
def evCommitAbandoned (number : Half) (remaining : Nat) : Event :=
  { kind := 3, detail := 0, subject := number.toNat, initiator := thePart, extra := wordNat remaining }

/-- PANEL_LATE. -/
def evPanelLate (p : PanelId) (sync : SyncState) (number : Half) : Event :=
  { kind := 4, detail := syncCode sync, subject := p.val, initiator := thePart, extra := wordNat number.toNat }

/-- PANEL_UNSYNCED, with cause LIMIT 1 or CONFIG 2. -/
def evPanelUnsynced (p : PanelId) (cause : Nat) (left : SyncState) (lastRead : Word) : Event :=
  { kind := 5, detail := cause, subject := p.val + 256 * syncCode left, initiator := thePart, extra := lastRead }

/-- SOURCE_STALE. -/
def evSourceStale (src : SourceId) (left : CadenceState) (baseline elapsed : Nat) : Event :=
  { kind := 6, detail := cadenceCode left, subject := src.val, initiator := thePart
    extra := wordNat (baseline + 65536 * elapsed) }

/-- SOURCE_LIVE. -/
def evSourceLive (src : SourceId) (baseline frames : Nat) : Event :=
  { kind := 7, detail := 0, subject := src.val, initiator := thePart, extra := wordNat (baseline + 65536 * frames) }

/-- SOURCE_REFUSED. -/
def evSourceRefused (src : SourceId) (reason : Nat) (item : Option Nat) (by_ : Initiator) : Event :=
  { kind := 8, detail := reason, subject := src.val, initiator := by_, extra := wordNat (idOrAbsent item) }

/-- FAILOVER. -/
def evFailover (w : WindowId) (copies left taken : Nat) : Event :=
  { kind := 9, detail := copies, subject := w.val, initiator := thePart
    extra := wordOf (byteNat left) (byteNat taken) 0 0 }

/-- FAILOVER_ADVISED. -/
def evFailoverAdvised (w : WindowId) (copies primary alternate : Nat) : Event :=
  { kind := 10, detail := copies, subject := w.val, initiator := thePart
    extra := wordOf (byteNat primary) (byteNat alternate) 0 0 }

/-- FAILBACK, with cause REVERT 1 or RELEASE 2. -/
def evFailback (w : WindowId) (copies left taken cause : Nat) (by_ : Initiator) : Event :=
  { kind := 11, detail := copies, subject := w.val, initiator := by_
    extra := wordOf (byteNat left) (byteNat taken) (byteNat cause) 0 }

/-- LIVE_OVERRUN, with reason QUEUE_FULL 1 or SHARE_FULL 2. -/
def evLiveOverrun (src : SourceId) (by_ : Initiator) (reason line : Nat) (w : WindowId) (p : PanelId) : Event :=
  { kind := 12, detail := reason, subject := src.val, initiator := by_
    extra := wordNat (line % 65536 + 65536 * w.val + 16777216 * p.val) }

/-- The extra field of STORE_FAULT and STORE_TIMEOUT: the subject of the table entry. -/
def ownSubject : OwnWrite → Word
  | .expansion w p => wordOf (byteNat w.val) (byteNat p.val) 0 0
  | .fill _ k p => wordOf (byteNat (fillKindCode k)) (byteNat p.val) 0 0
  | .post off => wordNat off

/-- STORE_FAULT. -/
def evStoreFault (tag : Tag) (own : OwnWrite) : Event :=
  { kind := 13, detail := originCode own, subject := tag.val, initiator := thePart, extra := ownSubject own }

/-- STORE_TIMEOUT. -/
def evStoreTimeout (tag : Tag) (own : OwnWrite) : Event :=
  { kind := 14, detail := originCode own, subject := tag.val, initiator := thePart, extra := ownSubject own }

/-- TAGS_EXHAUSTED. -/
def evTagsExhausted : Event := { kind := 15, detail := 0, subject := 0, initiator := thePart, extra := 0 }

/-- FILL_FALLBACK. -/
def evFillFallback (p : PanelId) (formed removed : Nat) : Event :=
  { kind := 16, detail := 0, subject := p.val, initiator := thePart, extra := wordNat (formed + 65536 * removed) }

/-- FILL_LOST. -/
def evFillLost (k : FillKind) (panelOrSource entries : Nat) : Event :=
  { kind := 17, detail := fillKindCode k, subject := panelOrSource, initiator := thePart, extra := wordNat entries }

/-- ACCESS_REFUSED. -/
def evAccessRefused (by_ : Initiator) (reason offset : Nat) : Event :=
  { kind := 18, detail := reason, subject := offset, initiator := by_, extra := 0 }

/-- OWNER_SEIZED. -/
def evOwnerSeized (w : WindowId) (previous by_ : Initiator) : Event :=
  { kind := 19, detail := 0, subject := w.val, initiator := by_, extra := wordNat previous.val }

/-- MODE_CHANGED. -/
def evModeChanged (former new : Mode) (by_ : Initiator) (sequence : Half) : Event :=
  { kind := 20, detail := modeCode new, subject := modeCode former, initiator := by_, extra := wordNat sequence.toNat }

/-- WALL_RESET with cause COMMAND 1. -/
def evWallResetCommand (by_ : Initiator) (sequence : Half) : Event :=
  { kind := 21, detail := 1, subject := 0, initiator := by_, extra := wordNat sequence.toNat }

/-- WALL_RESET with cause PIN 2. -/
def evWallResetPin : Event :=
  { kind := 21, detail := 2, subject := 0, initiator := thePart, extra := Config.pinSequence }

/-- MALFORMED. -/
def evMalformed (by_ : Initiator) (reason : Nat) (a : Address) : Event :=
  { kind := 22, detail := reason, subject := a.toNat / 2 ^ 32, initiator := by_, extra := a.extractLsb' 0 32 }

/-- RING_OVERFLOW. -/
def evRingOverflow (dropped : Nat) : Event :=
  { kind := 23, detail := 0, subject := 0, initiator := thePart, extra := wordNat dropped }

/-- The unread records: the allocation index less the consumer index, modulo 256 (R165). -/
def unreadOf (m : Shadow) (p : Poster) : Nat := (p.allocation - consumerIndex m).toNat

/-- The unread records of the state. -/
def unread (s : State) : Nat := unreadOf s.shadow s.poster

/-- The record an event is given: slot, sequence number and time (R165). -/
def recordOf (now : Word) (e : Event) (p : Poster) : EventRecord :=
  { slot := p.allocation, sequence := p.sequence + 1, kind := byteNat e.kind, detail := byteNat e.detail
    subject := halfNat e.subject, initiator := e.initiator, time := now, extra := e.extra }

/-- The Poster with an event allocated (R165). -/
def allocated (now : Word) (e : Event) (p : Poster) : Poster :=
  { p with
    allocation := p.allocation + 1, sequence := p.sequence + 1, events := p.events ++ [recordOf now e p] }

/-- The Poster with an event dropped: the overflow flag is set, the dropped count rises to at most 65535, and a change
of the flag flags the producer word (R165, R166). -/
def dropped (p : Poster) : Poster :=
  { flaggedIf (!p.overflow) .producer p with overflow := true, dropped := min 65535 (p.dropped + 1) }

/-- The Poster after an event has been handed to it: masked, dropped or allocated (R165). -/
def handedOver (m : Shadow) (now : Word) (e : Event) (p : Poster) : Poster :=
  if eventEnabled m e.kind then
    if unreadOf m p = Config.unreadLimit then dropped p else allocated now e p
  else p

/-- Hand an event to the Poster (R165). -/
def postEvent (e : Event) (s : State) : State :=
  { s with poster := handedOver s.shadow s.wallTime e s.poster }

/-! ## The producer index -/

/-- P after passing every slot whose write has ended, with the slots left (R166). -/
def passEnded : Slot → List (Slot × Bool) → Slot × List (Slot × Bool)
  | _, (k, true) :: rest => passEnded (k + 1) rest
  | p, left => (p, left)

/-- Move P over the ended slots at its head; a change flags the producer word, and IRQ follows (R166, R167). -/
def advanceProducer (s : State) : State :=
  let r := passEnded s.poster.producer s.poster.issued
  updateIrq (flagIf (s.poster.producer != r.1) .producer
    { s with poster := { s.poster with producer := r.1, issued := r.2 } })

/-- The issued slots with the first outstanding write of slot `k` marked ended. DESIGN CHOICE, unsafe (log entry 36): where
a consumer index run ahead has let the ring wrap onto a slot whose earlier write is outstanding, R166 does not say which of
the slot's two records an answer or a timeout ends, and the model ends the one issued first. -/
def markEnded (k : Slot) : List (Slot × Bool) → List (Slot × Bool)
  | [] => []
  | (j, e) :: rest => if j = k ∧ e = false then (j, true) :: rest else (j, e) :: markEnded k rest

/-- The ring slot at an offset, where the offset lies in the event ring (R172). -/
def ringSlot (off : Nat) : Option Slot :=
  if 0x4000 ≤ off ∧ off < 0x5000 then some (BitVec.ofNat 8 ((off - 0x4000) / 16)) else none

/-- The Poster learns that a post write has ended, by an answer or a timeout: an event record's slot is passed once
every earlier one is (R166, and log entry 36 for a slot with two writes out); a posted item needs nothing (R169). -/
def postEnded (off : Nat) (s : State) : State :=
  match ringSlot off with
  | none => s
  | some k =>
    advanceProducer { s with poster := { s.poster with issued := markEnded k s.poster.issued } }

/-- The Poster after a consumer index write: while the overflow flag is set and there is room, RING_OVERFLOW is allocated,
the flag clears and the dropped count returns to 0 (R166). -/
def overflowReported (m : Shadow) (now : Word) (p : Poster) : Poster :=
  if p.overflow ∧ unreadOf m p < Config.unreadLimit then
    { flaggedIf true .producer (allocated now (evRingOverflow p.dropped) p) with overflow := false, dropped := 0 }
  else p

/-- The part takes a consumer index write; IRQ follows (R166, R167). -/
def consumerWritten (s : State) : State :=
  updateIrq { s with poster := overflowReported s.shadow s.wallTime s.poster }

/-! ## What is written -/

/-- The three refusal bytes of the commit status word: window, reason, other window. With no refusal posted (R103) there
is no window and no other window to name, and both read 0xFF (R172); the reason is a free value (log entry 3). -/
def refusalBytes (c : Commit) : List Byte :=
  match c.state, c.refusal with
  | .refused, some r => [byteNat r.window.val, byteNat r.reason, byteNat (idOrAbsent (r.other.map (·.val)))]
  | _, _ => [byteNat (idOrAbsent none), Config.emptyReason, byteNat (idOrAbsent none)]

/-- The number of QUARANTINED entries (R19). -/
def quarantinedCount (s : State) : Nat := s.tags.toList.countP (· == .quarantined)

/-- The four bytes of a window's owner word: ownership in bit 0, the owner initiator in bits 11:8, the priority flag in bit
16 (R157, R172). A FREE entry has neither owner nor priority, and no rule says what the two fields then show: free values
(DESIGN CHOICE, log entry 34). -/
def ownerBytes : Owner → List Byte
  | .free => [0, Config.freeOwnerInitiator.setWidth 8, byteFlag Config.freeOwnerPriority, 0]
  | .owned i pr => [1, byteNat i.val, byteFlag pr, 0]

/-- The bytes a posted item holds now (R33, R64, R103, R157, R158, R172). -/
def itemBytes (s : State) : PostItem → List Byte
  | .mode => wordBytes (wordNat (modeCode s.mode))
  | .commit => halfBytes s.commit.number ++ [byteNat (commitCode s.commit.state), byteNat s.commit.remaining]
      ++ refusalBytes s.commit ++ [0]
  | .result => halfBytes s.result.sequence ++ [s.result.code, byteNat (outcomeCode s.result.outcome)]
      ++ s.result.detail.toList ++ [0]
  | .producer => [s.poster.producer, byteFlag s.poster.overflow, 0, 0]
  | .occupancy => wordBytes (wordNat s.queue.length)
  | .fills => [byteNat (channelCode s.channel0.state), byteNat (lastCode s.channel0.last),
      byteNat (channelCode s.channel1.state), byteNat (lastCode s.channel1.last)]
  | .quarantined => wordBytes (wordNat (quarantinedCount s))
  | .indicators => [byteNat ((s.indicators[0]).toNat + 2 * (s.indicators[1]).toNat + 4 * (s.indicators[2]).toNat
      + 8 * (s.indicators[3]).toNat), 0, 0, 0]
  | .source i => [byteFlag s.apertures[i].isSome, byteNat (cadenceCode s.cadence[i].state)]
      ++ halfBytes (halfNat s.cadence[i].baseline)
  | .panel p => [byteNat (syncCode s.sync[p].state), byteFlag (s.selection[p] == .next)]
      ++ halfBytes s.panelEpoch[p]
  | .owner w => ownerBytes s.owners[w]
  | .image w => [byteNat (windowCode s.active.records[w].window.state), byteNat s.active.records[w].effective,
      byteFlag (s.gates[w] == .opened), byteNat s.fillCount[w]]

/-- The 16 bytes of an event record (R172). -/
def eventBytes (r : EventRecord) : List Byte :=
  halfBytes r.sequence ++ [r.kind, r.detail] ++ halfBytes r.subject ++ [byteNat r.initiator.val, 0]
    ++ wordBytes r.time ++ wordBytes r.extra

/-- The offset of a ring slot (R172). -/
def slotOffset (k : Slot) : Nat := 0x4000 + 16 * k.toNat

/-- A write of the part itself: initiator 15, link tag the own tag (R2, R16). -/
def ownTxn (tag : Tag) (address : Address) (bytes : List Byte) (strobes : List Bool) : Txn :=
  { kind := .write, initiator := thePart, linkTag := byteNat tag.val, address := address, length := bytes.length
    data := bytes, strobes := strobes }

/-- The address of an offset of the control region (R172). -/
def controlAddress (s : State) (off : Nat) : Address := BitVec.ofNat 40 (controlBase s + off)

/-! ## Which write is offered -/

/-- Among the flagged items, by ascending offset: the lowest above the item posted last, or else the lowest (R168). -/
def nextItem (last : Option PostItem) (flags : List PostItem) : Option PostItem :=
  match last with
  | none => flags.head?
  | some i =>
    match flags.find? (fun j => itemOffset i < itemOffset j) with
    | some j => some j
    | none => flags.head?

/-- Which of its two sources the Poster offers from: in turn when both have work (R168). -/
def offeredFrom (p : Poster) : Option PostSource :=
  match p.events.isEmpty, p.flags.isEmpty with
  | true, true => none
  | false, true => some .events
  | true, false => some .items
  | false, false => match p.lastSource with
    | .events => some .items
    | .items => some .events

end Sys2Proof.Machine
end

