-- ==== Sys2Proof/Machine/Store.lean ====
section
/-! DEFINITION. The Outstanding Store Table: tags, their states, the exhaustion report (R16, R19). -/

namespace Sys2Proof.Machine

/-- The lowest-numbered FREE tag (R16). -/
def freeTag (s : State) : Option Tag := (List.finRange 32).find? fun t => s.tags[t] == .free

/-- Set one entry of the table. -/
def setTag (t : Tag) (e : TagState) (s : State) : State := { s with tags := put s.tags t e }

/-- Report exhaustion when the QUARANTINED count is 32 with the flag ARMED (R19). -/
def reportExhausted (s : State) : State :=
  if quarantinedCount s = 32 ∧ s.exhaustion = .armed then
    postEvent evTagsExhausted { s with exhaustion := .spent }
  else s

/-- A BUSY entry becomes QUARANTINED: the count changes, and may be reported (R18, R19). -/
def quarantineTag (t : Tag) (s : State) : State :=
  reportExhausted (flag .quarantined (setTag t .quarantined s))

/-- A QUARANTINED entry becomes FREE: the count changes, and the exhaustion flag returns to ARMED (R17, R19). -/
def releaseQuarantined (t : Tag) (s : State) : State :=
  flag .quarantined { setTag t .free s with exhaustion := .armed }

/-- Issue an own write with a tag: its entry becomes BUSY with the wall time of the grant, and the write leaves at the
store port (R15, R16). -/
def issueOwn (t : Tag) (own : OwnWrite) (txn : Txn) (s : State) : State :=
  { setTag t (.busy s.wallTime own) s with storeOut := s.storeOut ++ [txn] }

/-- The BUSY entries of a wall reset become QUARANTINED at once, without reports (R20), and the count may be reported
exhausted (R19). -/
def quarantineAll (s : State) : State :=
  let s' := { s with tags := s.tags.map fun e => match e with
    | .busy _ _ => .quarantined
    | e => e }
  reportExhausted (flagIf (quarantinedCount s' != quarantinedCount s) .quarantined s')

end Sys2Proof.Machine
end

