-- ==== Sys2Proof/Machine/Wall.lean ====
section
/-! DEFINITION. The wall plane and the panel grid (R21, R76, R77, R79, R121), the layout a panel uses (R56, R57) and
which windows cover and occlude a wall pixel (R53, R80, R127). -/

namespace Sys2Proof.Machine

/-- The horizontal panel step XP (R21). -/
def stepX (g : Geometry) : Nat := g.panelWidth + g.bezelX

/-- The vertical panel step YP (R21). -/
def stepY (g : Geometry) : Nat := g.panelHeight + g.bezelY

/-- The wall width WW (R21). -/
def wallWidth (g : Geometry) : Nat := g.columns * stepX g - g.bezelX

/-- The wall height WH (R21). -/
def wallHeight (g : Geometry) : Nat := g.rows * stepY g - g.bezelY

/-- The number of grid panels (R21). -/
def gridCount (g : Geometry) : Nat := g.columns * g.rows

/-- Whether a panel is a grid panel (R21). -/
def isGrid (g : Geometry) (p : PanelId) : Bool := p.val < gridCount g

/-- The grid panels in ascending number. -/
def gridPanels (g : Geometry) : List PanelId := (List.finRange 32).filter (isGrid g)

/-- The end of a panel's frame buffer: its base plus PH lines (R24). -/
def bufferEnd (g : Geometry) (p : PanelId) : Nat := g.panels[p].base + g.panelHeight * g.panels[p].pitch

/-- The end of an aperture (R34). -/
def apertureEnd (a : Aperture) : Nat := a.base + a.frameHeight * a.pitch

/-- Whether the byte ranges `lo..hi-1` and `lo'..hi'-1` share a byte. -/
def sharesByte (lo hi lo' hi' : Nat) : Bool := max lo lo' < min hi hi'

/-- Where a wall pixel lies: its panel and its pixel there, or nowhere: off the wall (R76) or in a bezel (R77). -/
def locate (g : Geometry) (x y : Nat) : Option (PanelId × Nat × Nat) :=
  if wallWidth g ≤ x ∨ wallHeight g ≤ y then none
  else
    let ox := x % stepX g
    let oy := y % stepY g
    let p := y / stepY g * g.columns + x / stepX g
    if g.panelWidth ≤ ox ∨ g.panelHeight ≤ oy then none
    else if h : p < 32 then some (⟨p, h⟩, ox, oy) else none

/-- The address of pixel `ox` of line `oy` of a panel (R24, R79). -/
def pixelAddress (g : Geometry) (p : PanelId) (ox oy : Nat) : Address :=
  BitVec.ofNat 40 (g.panels[p].base + oy * g.panels[p].pitch + ox * 4)

/-- The wall column of a panel's left edge (R21). -/
def panelLeft (g : Geometry) (p : PanelId) : Nat := p.val % g.columns * stepX g

/-- The wall row of a panel's top edge (R21). -/
def panelTop (g : Geometry) (p : PanelId) : Nat := p.val / g.columns * stepY g

/-- The part of a wall rectangle that lies on a panel, in panel pixels: x, y, w, h; none where it is empty (R121). -/
def cutToPanel (g : Geometry) (p : PanelId) (dx dy dw dh : Nat) : Option (Nat × Nat × Nat × Nat) :=
  let x0 := max dx (panelLeft g p)
  let x1 := min (dx + dw) (panelLeft g p + g.panelWidth)
  let y0 := max dy (panelTop g p)
  let y1 := min (dy + dh) (panelTop g p + g.panelHeight)
  if x0 < x1 ∧ y0 < y1 then some (x0 - panelLeft g p, y0 - panelTop g p, x1 - x0, y1 - y0) else none

/-! ## Layouts -/

/-- The layout version a panel uses (R56, R57); NEXT exists wherever a panel uses it (R54). -/
def layoutOf (s : State) (p : PanelId) : Layout :=
  match s.selection[p] with
  | .active => s.active
  | .next => s.next.getD s.active

/-- Whether a window's placement contains a wall pixel (R80). -/
def covers (w : Window) (x y : Nat) : Bool := w.dx ≤ x && x < w.dx + w.dw && w.dy ≤ y && y < w.dy + w.dh

/-- Whether a window hides what lies below it: SHOWN or FROZEN (R52, R53). -/
def occluding (w : Window) : Bool := w.state == .shown || w.state == .frozen

/-- Whether a wall pixel of a window on layer `layer` lies under a SHOWN or FROZEN window of a lower layer number of
the same version (R80, R81). -/
def occluded (l : Layout) (layer x y : Nat) : Bool :=
  (List.finRange 64).any fun u =>
    let w := l.records[u].window
    occluding w && decide (w.layer < layer) && covers w x y

/-- The owner of a wall pixel in a resolve fill: the SHOWN or FROZEN window of lowest layer number that contains it, the
lower id where an invalid layout holds a layer twice (R127). -/
def topOwner (l : Layout) (x y : Nat) : Option WindowId :=
  (List.finRange 64).foldl (fun best u =>
    let w := l.records[u].window
    if occluding w && covers w x y then
      match best with
      | none => some u
      | some b => if w.layer < l.records[b].window.layer then some u else best
    else best) none

/-- Two records are compared in every field that makes a window changed (R107). -/
def changedWindow (old new : Window) : Bool :=
  (old.state == .unused) != (new.state == .unused)
    || (old.state != .unused && new.state != .unused
      && (old.state != new.state || old.layer != new.layer || old.primary != new.primary
        || old.cx != new.cx || old.cy != new.cy || old.cw != new.cw || old.ch != new.ch
        || old.dx != new.dx || old.dy != new.dy || old.dw != new.dw || old.dh != new.dh))

/-- The layout STAGE gives: every STAGE record with its effective source at its primary (R59, R65). -/
def stagedLayout (m : Shadow) (epoch : Half) : Layout :=
  { records := Vector.ofFn fun w : Fin 64 =>
      let r := stageWindow m w
      { window := r, effective := r.primary }
    epoch := epoch }

end Sys2Proof.Machine
end

