-- ==== Sys2Proof/Machine/Fill.lean ====
section
/-! DEFINITION. The Fill Engine: its lists, its two channels, the rows it paints, and how entries start and end
(R119 to R133). -/

namespace Sys2Proof.Machine

/-! ## Channels -/

/-- The other channel. -/
def otherChannel : ChannelId → ChannelId
  | .zero => .one
  | .one => .zero

/-- A channel's record. -/
def getChannel (c : ChannelId) (s : State) : Channel :=
  match c with
  | .zero => s.channel0
  | .one => s.channel1

/-- Set a channel; a change of its state or last outcome flags the channels' word (R125). -/
def setChannel (c : ChannelId) (ch : Channel) (s : State) : State :=
  flagIf ((getChannel c s).state != ch.state || (getChannel c s).last != ch.last) .fills
    { s with
      channel0 := match c with
        | .zero => ch
        | .one => s.channel0
      channel1 := match c with
        | .zero => s.channel1
        | .one => ch }

/-- Move a channel to a state. -/
def moveChannel (c : ChannelId) (st : ChannelState) (s : State) : State :=
  setChannel c { getChannel c s with state := st } s

/-- The number of entries in a channel's list. -/
def listLength (c : ChannelId) (s : State) : Nat :=
  match c with
  | .zero => s.exposure.length
  | .one => s.marking.length

/-- An entry has joined a channel's list: an IDLE channel becomes PENDING or ACTIVE (R125). -/
def entryJoined (c : ChannelId) (s : State) : State :=
  if (getChannel c s).state = .idle then
    if (getChannel (otherChannel c) s).state = .active then moveChannel c .pending s else moveChannel c .active s
  else s

/-- The ACTIVE channel's current entry has ended and left its list: the channels swap, or this one goes on (R125). -/
def entryEnded (c : ChannelId) (s : State) : State :=
  if (getChannel (otherChannel c) s).state = .pending then
    moveChannel (otherChannel c) .active (moveChannel c (if listLength c s = 0 then .idle else .pending) s)
  else if listLength c s = 0 then moveChannel c .idle s
  else s

/-- The ACTIVE channel's list has emptied by discards before any entry started (R125). -/
def emptiedByDiscards (c : ChannelId) (s : State) : State :=
  let s' := moveChannel c .idle s
  if (getChannel (otherChannel c) s').state = .pending then moveChannel (otherChannel c) .active s' else s'

/-! ## Entries -/

/-- A RESOLVE entry has ended: its cause's pending-fill count falls by 1 (R63). -/
def lowerCause (e : ResolveEntry) (s : State) : State :=
  match e.cause with
  | none => s
  | some w => setCount w (s.fillCount[w] - 1) s

/-- Several RESOLVE entries have ended. -/
def lowerCauses (es : List ResolveEntry) (s : State) : State := es.foldl (fun s e => lowerCause e s) s

/-- The head entry leaves a channel's list. -/
def dropHead (c : ChannelId) (s : State) : State :=
  match c with
  | .zero => match s.exposure with
    | [] => s
    | e :: rest => lowerCause e { s with exposure := rest }
  | .one => { s with marking := s.marking.tail }

/-- A channel's current entry ends with this outcome (R129, R130). -/
def endCurrent (c : ChannelId) (o : LastOutcome) (s : State) : State :=
  let s' := dropHead c s
  entryEnded c (setChannel c { getChannel c s' with current := false, row := [], last := o } s')

/-- RESOLVE entries join the Exposure Fill List at the tail, each raising its cause's count by 1 (R121). -/
def joinExposure (es : List ResolveEntry) (s : State) : State :=
  match es with
  | [] => s
  | _ =>
    let s' := es.foldl (fun s e => match e.cause with
      | none => s
      | some w => setCount w (s.fillCount[w] + 1) s) { s with exposure := s.exposure ++ es }
    entryJoined .zero s'

/-- BORDER entries join the Marking List at the tail (R124). -/
def joinMarking (es : List BorderEntry) (s : State) : State :=
  match es with
  | [] => s
  | _ => entryJoined .one { s with marking := s.marking ++ es }

/-! ## RESOLVE entries at a panel switch -/

/-- The entry a placement gives on a panel (R121). -/
def resolveEntry (s : State) (p : PanelId) (epoch : Half) (cause : WindowId) (w : Window) : Option ResolveEntry :=
  if w.state = .unused then none
  else (cutToPanel s.geometry p w.dx w.dy w.dw w.dh).map fun r =>
    { panel := p, x := r.1, y := r.2.1, w := r.2.2.1, h := r.2.2.2, epoch := epoch, cause := some cause, rowsDone := 0 }

/-- The entries a switch of a panel forms: for each changed window in ascending id, the old rectangle before the new one
(R121). -/
def resolveEntries (s : State) (new : Layout) (p : PanelId) : List ResolveEntry :=
  (List.finRange 64).flatMap fun w =>
    if s.commit.changed[w] then
      (resolveEntry s p new.epoch w s.active.records[w].window).toList
        ++ (resolveEntry s p new.epoch w new.records[w].window).toList
    else []

/-- Whether the entries formed for one switch fit (R122). -/
def entriesFit (s : State) (es : List ResolveEntry) : Bool :=
  s.exposure.length + es.length ≤ Config.exposureCapacity
    && (List.finRange 64).all fun w =>
      let n := es.countP (fun e => e.cause == some w)
      n == 0 || s.fillCount[w] + n ≤ Config.fillCountLimit

/-- The entries that wait in the Exposure Fill List, without the current entry of channel 0 (R122). -/
def waitingExposure (s : State) : List ResolveEntry :=
  if s.channel0.current then s.exposure.tail else s.exposure

/-- The whole-panel fallback (R122, R123). -/
def wholePanelFallback (p : PanelId) (epoch : Half) (formed : Nat) (s : State) : State :=
  let kept := if s.channel0.current then s.exposure.take 1 else []
  let removed := (waitingExposure s).filter (fun e => e.panel == p)
  let left := kept ++ (waitingExposure s).filter (fun e => !(e.panel == p))
  let s1 := lowerCauses removed { s with exposure := left }
  if s1.exposure.length < Config.exposureCapacity then
    let e : ResolveEntry :=
      { panel := p, x := 0, y := 0, w := s.geometry.panelWidth, h := s.geometry.panelHeight, epoch := epoch
        cause := none, rowsDone := 0 }
    postEvent (evFillFallback p formed removed.length) (joinExposure [e] s1)
  else postEvent (evFillLost .resolve p.val formed) s1

/-- The Fill Engine's part of a switch (R110, R121, R122). -/
def fillAtSwitch (p : PanelId) (new : Layout) (s : State) : State :=
  let es := resolveEntries s new p
  if entriesFit s es then joinExposure es s else wholePanelFallback p new.epoch es.length s

/-! ## BORDER entries when a source goes stale -/

/-- Whether a window is marked on a panel for a stale source, in the layout version the panel uses (R124). -/
def markedOn (s : State) (src : SourceId) (w : WindowId) (p : PanelId) : Bool :=
  let r := (layoutOf s p).records[w]
  r.window.state == .shown && r.effective == src.val
    && (cutToPanel s.geometry p r.window.dx r.window.dy r.window.dw r.window.dh).isSome

/-- The entries due when a source goes stale: by ascending window and panel, without those the Marking List already
holds (R124). -/
def borderEntries (s : State) (src : SourceId) : List BorderEntry :=
  (List.finRange 64).flatMap fun w =>
    ((gridPanels s.geometry).filter fun p =>
      markedOn s src w p && !(s.marking.any fun e => e.window == w && e.panel == p)).map fun p =>
        { panel := p, window := w, source := src, firstLine := 0, lines := 0, rowsDone := 0 }

/-- The Fill Engine is told that a source has entered STALE (R124, R123). -/
def markStale (src : SourceId) (s : State) : State :=
  let due := borderEntries s src
  let room := Config.markingCapacity - s.marking.length
  let s1 := joinMarking (due.take room) s
  if room < due.length then postEvent (evFillLost .border src.val (due.length - room)) s1 else s1

/-! ## Rows -/

/-- A row's pixels, each with its colour source, cut into writes: (first ox, pixel count, colour source). A write ends
where the colour source changes, at a gap, and at the last pixel of a 256-byte block (R127). -/
def cutRuns {κ : Type} [DecidableEq κ] : List (Nat × κ) → List (Nat × Nat × κ)
  | [] => []
  | (ox, k) :: rest =>
    match cutRuns rest with
    | [] => [(ox, 1, k)]
    | (ox', n, k') :: more =>
      if k = k' ∧ ox' = ox + 1 ∧ ox' % 64 ≠ 0 then (ox, n + 1, k) :: more
      else (ox, 1, k) :: (ox', n, k') :: more

/-- The fill writes of a row's pieces (R129). -/
def rowWrites {κ : Type} (g : Geometry) (p : PanelId) (oy : Nat) (colour : κ → Word)
    (pieces : List (Nat × Nat × κ)) : List FillWrite :=
  pieces.map fun q => { panel := p, address := pixelAddress g p q.1 oy, count := q.2.1, colour := colour q.2.2 }

/-- Row `r` of a RESOLVE entry (R127). -/
def resolveRow (s : State) (e : ResolveEntry) (r : Nat) : List FillWrite :=
  let l := layoutOf s e.panel
  let oy := e.y + r
  let y := panelTop s.geometry e.panel + oy
  let pixels := (List.range' e.x e.w).map fun ox => (ox, topOwner l (panelLeft s.geometry e.panel + ox) y)
  rowWrites s.geometry e.panel oy (fun o => match o with
    | some w => l.records[w].window.fill
    | none => backgroundColour s.shadow) (cutRuns pixels)

/-- Whether a wall pixel of a placement lies in its band (R128). -/
def inBand (w : Window) (width x y : Nat) : Bool :=
  covers w x y &&
    (decide (y < w.dy + width) || decide (w.dy + w.dh ≤ y + width)
      || decide (x < w.dx + width) || decide (w.dx + w.dw ≤ x + width))

/-- Row `r` of a BORDER entry (R128). -/
def borderRow (s : State) (e : BorderEntry) (r : Nat) : List FillWrite :=
  let l := layoutOf s e.panel
  let w := l.records[e.window].window
  if w.state = .shown then
    let oy := e.firstLine + r
    let y := panelTop s.geometry e.panel + oy
    let pixels := (List.range s.geometry.panelWidth).filter fun ox =>
      let x := panelLeft s.geometry e.panel + ox
      inBand w (borderWidth s.shadow) x y && !occluded l w.layer x y
    rowWrites s.geometry e.panel oy (fun _ => staleColour s.shadow) (cutRuns (pixels.map fun ox => (ox, ())))
  else []

/-- The writes of row `r` of a channel's head entry. -/
def headRow (s : State) (c : ChannelId) (r : Nat) : List FillWrite :=
  match c with
  | .zero => match s.exposure with
    | [] => []
    | e :: _ => resolveRow s e r
  | .one => match s.marking with
    | [] => []
    | e :: _ => borderRow s e r

/-- The rows a channel's head entry has done, and how many it has. -/
def headRows (s : State) (c : ChannelId) : Nat × Nat :=
  match c with
  | .zero => match s.exposure with
    | [] => (0, 0)
    | e :: _ => (e.rowsDone, e.h)
  | .one => match s.marking with
    | [] => (0, 0)
    | e :: _ => (e.rowsDone, e.lines)

/-- The channel's head entry with this many rows done. -/
def setRowsDone (c : ChannelId) (n : Nat) (s : State) : State :=
  match c with
  | .zero => match s.exposure with
    | [] => s
    | e :: rest => { s with exposure := { e with rowsDone := n } :: rest }
  | .one => match s.marking with
    | [] => s
    | e :: rest => { s with marking := { e with rowsDone := n } :: rest }

/-- From row `r` with `left` rows to begin: pass the rows without a write, and answer the row that has writes, or the
number of rows when none is left (R128, R129). -/
def nextRow (s : State) (c : ChannelId) : Nat → Nat → Nat × List FillWrite
  | 0, r => (r, [])
  | left + 1, r =>
    match headRow s c r with
    | [] => nextRow s c left (r + 1)
    | w :: ws => (r, w :: ws)

/-- Begin the next row of the current entry, with `done` rows done so far (R129). -/
def beginRow (c : ChannelId) (done : Nat) (s : State) : State :=
  let q := nextRow s c ((headRows s c).2 - done) done
  let s' := setRowsDone c q.1 s
  setChannel c { getChannel c s' with row := q.2 } s'

/-! ## Starting an entry (R126) -/

/-- Whether the RESOLVE entry's epoch is its panel's (R126, check 1). -/
def resolvePasses (s : State) (e : ResolveEntry) : Bool := e.epoch == s.panelEpoch[e.panel]

/-- Whether the BORDER entry's source still feeds its window and is STALE (R126, check 2). -/
def borderPasses (s : State) (e : BorderEntry) : Bool :=
  (layoutOf s e.panel).records[e.window].effective == e.source.val && s.cadence[e.source].state == .stale

/-- Discard the superseded entries at the head of the Exposure Fill List. -/
def discardExposure : List ResolveEntry → State → State
  | [], s => { s with exposure := [] }
  | e :: rest, s =>
    if resolvePasses s e then { s with exposure := e :: rest }
    else discardExposure rest (lowerCause e { s with exposure := rest })

/-- The row range of a BORDER entry, fixed when it starts (R128). -/
def withRowRange (s : State) (e : BorderEntry) : BorderEntry :=
  let w := (layoutOf s e.panel).records[e.window].window
  match cutToPanel s.geometry e.panel w.dx w.dy w.dw w.dh with
  | none => { e with firstLine := 0, lines := 0, rowsDone := 0 }
  | some (_, y, _, h) => { e with firstLine := y, lines := h, rowsDone := 0 }

/-- Discard the entries at the head of a channel's list that fail their check, and fix the row range of a BORDER entry
that passes (R126, R128). -/
def discardHeads (c : ChannelId) (s : State) : State :=
  match c with
  | .zero => discardExposure s.exposure s
  | .one => match s.marking.dropWhile (fun e => !borderPasses s e) with
    | [] => { s with marking := [] }
    | e :: rest => { s with marking := withRowRange s e :: rest }

/-- A channel starts its head entry: checks, discards, and the first row of the entry that passes (R126, R129). -/
def startEntry (c : ChannelId) (s : State) : State :=
  let s1 := discardHeads c s
  if listLength c s1 = 0 then emptiedByDiscards c s1
  else
    let s2 := setChannel c { getChannel c s1 with current := true, row := [] } s1
    beginRow c 0 (setRowsDone c 0 s2)

/-- Whether a channel is due to start an entry: ACTIVE, entries in its list, none current, no outstanding write. -/
def canStart (c : ChannelId) (s : State) : Bool :=
  (getChannel c s).state == .active && !(getChannel c s).current && (getChannel c s).outstanding == 0
    && decide (0 < listLength c s)

/-- Whether a channel's current entry is painted to completion (R129). -/
def isPainted (c : ChannelId) (s : State) : Bool :=
  (getChannel c s).state == .active && (getChannel c s).current && (getChannel c s).row.isEmpty
    && (getChannel c s).outstanding == 0 && decide ((headRows s c).2 ≤ (headRows s c).1)

/-! ## Answers, faults and clearing -/

/-- A write of a channel has been answered or has timed out: its outstanding count falls by 1 (R129). -/
def answered (c : ChannelId) (s : State) : State :=
  setChannel c { getChannel c s with outstanding := (getChannel c s).outstanding - 1 } s

/-- A channel is told of a fault or timeout of one of its writes: the current entry is abandoned (R130). -/
def channelFault (c : ChannelId) (o : LastOutcome) (s : State) : State :=
  let s' := answered c s
  if (getChannel c s').current then endCurrent c o s' else s'

/-- A channel after its list has been emptied by CANCEL_FILLS or a latch of the working geometry (R131). -/
def cancelled (ch : Channel) : Channel :=
  { ch with state := .idle, last := .cancelled, current := false, row := [] }

/-- Empty both lists, as CANCEL_FILLS does (R131) and a latch of the working geometry (R27). -/
def clearFills (s : State) : State :=
  let s1 := lowerCauses s.exposure { s with exposure := [], marking := [] }
  flag .fills { s1 with channel0 := cancelled s1.channel0, channel1 := cancelled s1.channel1 }

/-- A channel after a wall reset (R133). -/
def resetChannel (ch : Channel) : Channel :=
  { ch with state := .idle, outstanding := 0, current := false, row := [] }

/-- The Fill Engine's part of a wall reset (R133); the counts fall with the emptying (R63). -/
def resetFills (s : State) : State :=
  flag .fills { s with
    exposure := [], marking := [], channel0 := resetChannel s.channel0, channel1 := resetChannel s.channel1
    fillCount := Vector.replicate 64 0 }

end Sys2Proof.Machine
end

