-- ==== Sys2Proof/Machine/Failover.lean ====
section
/-! DEFINITION. Failover, failback and RELEASE_FAILOVER (R144 to R147), and the indicator lines (R148, R149). -/

namespace Sys2Proof.Machine

/-! ## Indicator lines -/

/-- Whether a source is STALE. -/
def isStale (s : State) (src : SourceId) : Bool := s.cadence[src].state == .stale

/-- The value line `m` is driven to (R149). -/
def indicatorLevel (s : State) (m : Fin 4) : Bool :=
  let masked := (List.finRange 32).filter (indicatorMask s.shadow m)
  let holds := if indicatorAll s.shadow m then !masked.isEmpty && masked.all (isStale s) else masked.any (isStale s)
  holds != indicatorInvert s.shadow m

/-- Drive every indicator line to its value; a change flags the lines' word (R149). -/
def evaluateIndicators (s : State) : State :=
  let levels := Vector.ofFn (indicatorLevel s)
  flagIf (s.indicators != levels) .indicators { s with indicators := levels }

/-! ## Judging one record -/

/-- What an evaluation finds due for a record. -/
inductive Move where
  | failover
  | failback
  | advised
deriving DecidableEq, Repr

/-- The cadence state of a source a record names; an id that names no source, which no validated record holds, counts as
DISABLED. -/
def cadenceOf (s : State) (src : Nat) : CadenceState :=
  if h : src < 32 then s.cadence[(⟨src, h⟩ : SourceId)].state else .disabled

/-- The condition for a failover: the effective source is the primary, the primary is STALE, the alternate is LIVE
(R145). -/
def failoverDue (s : State) (r : LayoutRecord) (alternate : Nat) : Bool :=
  r.effective == r.window.primary && cadenceOf s r.window.primary == .stale && cadenceOf s alternate == .live

/-- The condition for a failback: the effective source is the alternate, revert is set, the primary is LIVE (R145). -/
def failbackDue (s : State) (r : LayoutRecord) (alternate : Nat) : Bool :=
  r.effective == alternate && r.window.revert && cadenceOf s r.window.primary == .live

/-- What is due for a record by its failover mode (R144 to R146). -/
def judge (s : State) (r : LayoutRecord) : Option Move :=
  if r.window.state = .unused then none
  else match r.window.mode, r.window.alternate with
    | .auto, some a =>
      if failoverDue s r a then some .failover else if failbackDue s r a then some .failback else none
    | .notify, some a => if failoverDue s r a then some .advised else none
    | _, _ => none

/-- Whether a record is examined: every record, or those whose primary or alternate is a source (R144). -/
def examined (only : Option SourceId) (r : LayoutRecord) : Bool :=
  match only with
  | none => true
  | some src => r.window.primary == src.val || r.window.alternate == some src.val

/-- The record after what was found due for it. -/
def moved (r : LayoutRecord) (m : Option Move) : LayoutRecord :=
  match m with
  | some .failover => { r with effective := r.window.alternate.getD r.window.primary }
  | some .failback => { r with effective := r.window.primary }
  | _ => r

/-- The source left and the source taken, or the primary and the alternate, that a move of a record names. -/
def moveSources (r : LayoutRecord) (m : Move) : Nat × Nat :=
  let a := r.window.alternate.getD 255
  match m with
  | .failover => (r.window.primary, a)
  | .failback => (a, r.window.primary)
  | .advised => (r.window.primary, a)

/-! ## Evaluating windows -/

/-- Replace one record of ACTIVE; a change of state or effective source flags the window's image entry (R64). -/
def setActiveRecord (w : WindowId) (r : LayoutRecord) (s : State) : State :=
  flagIf (s.active.records[w].window.state != r.window.state || s.active.records[w].effective != r.effective) (.image w)
    { s with active := { s.active with records := put s.active.records w r } }

/-- Replace one record of NEXT, while it exists. -/
def setNextRecord (w : WindowId) (r : LayoutRecord) (s : State) : State :=
  match s.next with
  | none => s
  | some l => { s with next := some { l with records := put l.records w r } }

/-- The two source ids an event names for a window moved in one copy or both. Where both copies move and their records
name different sources, the manual does not say whose ids stand in the one event: a free choice of the two (log entry
6). -/
def reportedSources (inActive inNext : Option (Nat × Nat)) (s : State) : (Nat × Nat) × State :=
  match inActive, inNext with
  | some a, some n =>
    if a = n then (a, s)
    else (if Config.eitherOrder s.choices then a else n, { s with choices := s.choices + 1 })
  | some a, none => (a, s)
  | none, some n => (n, s)
  | none, none => ((0, 0), s)

/-- The code of the copies an event names: ACTIVE 1, NEXT 2, both 3 (R172). -/
def copiesCode (inActive inNext : Bool) : Nat := inActive.toNat + 2 * inNext.toNat

/-- Post the one event of a window for one kind of move, naming the copies it concerns (R144). -/
def reportMove (w : WindowId) (m : Move) (inActive inNext : Option (Nat × Nat)) (s : State) : State :=
  if inActive.isNone && inNext.isNone then s
  else
    let q := reportedSources inActive inNext s
    let copies := copiesCode inActive.isSome inNext.isSome
    postEvent (match m with
      | .failover => evFailover w copies q.1.1 q.1.2
      | .failback => evFailback w copies q.1.1 q.1.2 1 thePart
      | .advised => evFailoverAdvised w copies q.1.1 q.1.2) q.2

/-- The sources of a record that is due this kind of move. -/
def sourcesIf (r : Option LayoutRecord) (found : Option Move) (m : Move) : Option (Nat × Nat) :=
  match r with
  | some r => if found = some m then some (moveSources r m) else none
  | none => none

/-- Replace a window's record of ACTIVE where there is one to put. -/
def putActive (w : WindowId) (o : Option LayoutRecord) (s : State) : State :=
  match o with
  | none => s
  | some r => setActiveRecord w r s

/-- Replace a window's record of NEXT where there is one to put. -/
def putNext (w : WindowId) (o : Option LayoutRecord) (s : State) : State :=
  match o with
  | none => s
  | some r => setNextRecord w r s

/-- A window's record in NEXT, while NEXT exists. -/
def nextRecordOf (s : State) (w : WindowId) : Option LayoutRecord := s.next.map fun l => l.records[w]

/-- Report what was found due for a window's two records: one event for each kind (R144). Where ACTIVE and NEXT are due
moves of different kinds, R144 gives the two events no order: a free choice (DESIGN CHOICE, log entry 33). -/
def reportMoves (report : Move → State → State) (inActive inNext : Option Move) (s : State) : State :=
  match inActive, inNext with
  | some a, some n => if a = n then report a s else inEitherOrder (report a) (report n) s
  | some a, none => report a s
  | none, some n => report n s
  | none, none => s

/-- Evaluate one window: its record in ACTIVE where `inActive` says so, then its record in NEXT while it exists, each on
its own (R144 to R146). Events of two kinds for one window come in either order (log entry 33). -/
def evaluateWindow (only : Option SourceId) (inActive : Bool) (w : WindowId) (s : State) : State :=
  let ra := if inActive && examined only s.active.records[w] then some s.active.records[w] else none
  let rn := (nextRecordOf s w).filter (examined only)
  let ma := ra.bind (judge s)
  let mn := rn.bind (judge s)
  let s1 := putNext w (rn.map fun r => moved r mn) (putActive w (ra.map fun r => moved r ma) s)
  let switched := ma == some .failover || ma == some .failback || mn == some .failover || mn == some .failback
  let s2 := if switched then armGate w s1 else s1
  reportMoves (fun m s => reportMove w m (sourcesIf ra ma m) (sourcesIf rn mn m) s) ma mn s2

/-- Evaluate every window in ascending id (R144). -/
def evaluateFailover (only : Option SourceId) (inActive : Bool) (s : State) : State :=
  (List.finRange 64).foldl (fun s w => evaluateWindow only inActive w s) s

/-- The evaluations that follow a change of a source's cadence state (R138 note 3, R144, R149). -/
def cadenceMoved (src : SourceId) (s : State) : State := evaluateIndicators (evaluateFailover (some src) true s)

/-- The evaluations that follow a change of several sources' cadence states at one event. -/
def cadencesMoved (srcs : List SourceId) (s : State) : State :=
  evaluateIndicators (srcs.foldl (fun s src => evaluateFailover (some src) true s) s)

/-! ## RELEASE_FAILOVER -/

/-- Whether a record is on its alternate: not UNUSED, its effective source not its primary (R147, R58). -/
def onAlternate (r : LayoutRecord) : Bool := r.window.state != .unused && r.effective != r.window.primary

/-- A record returned to its primary. -/
def returned (r : LayoutRecord) : LayoutRecord := { r with effective := r.window.primary }

/-- The source left and the source taken when a record returns to its primary. -/
def returnSources (r : LayoutRecord) : Nat × Nat := (r.effective, r.window.primary)

/-- Return a window to its primary in each copy where it is on its alternate (R147). -/
def releaseFailover (by_ : Initiator) (w : WindowId) (s : State) : State :=
  let ra := if onAlternate s.active.records[w] then some s.active.records[w] else none
  let rn := (nextRecordOf s w).filter onAlternate
  if ra.isNone && rn.isNone then s
  else
    let s1 := putNext w (rn.map returned) (putActive w (ra.map returned) s)
    let q := reportedSources (ra.map returnSources) (rn.map returnSources) (armGate w s1)
    postEvent (evFailback w (copiesCode ra.isSome rn.isSome) q.1.1 q.1.2 2 by_) q.2

end Sys2Proof.Machine
end

