-- ==== Sys2Proof/Machine/Cadence.lean ====
section
/-! DEFINITION. The Cadence Monitor: the tick, stale entry, frame starts, baseline and recovery (R137 to R143). -/

namespace Sys2Proof.Machine

/-! ## Limits and stale entry -/

/-- The elapsed count at which a source enters STALE, by its state; none where no limit is tested (R137). -/
def staleLimit (m : Shadow) (src : SourceId) (c : Cadence) : Option Nat :=
  match c.state with
  | .awaiting => some (firstFrameLimit m src)
  | .learning => some (firstFrameLimit m src)
  | .live => some (min Config.cadenceTop (c.baseline + staleMargin m src))
  | .recovering => some (min Config.cadenceTop (c.baseline + staleMargin m src))
  | .stale => none
  | .disabled => none

/-- Whether a record's elapsed count has reached its state's limit (R137). -/
def limitReached (m : Shadow) (src : SourceId) (c : Cadence) : Bool :=
  match staleLimit m src c with
  | some limit => limit ≤ c.elapsed
  | none => false

/-- A record that enters STALE: B, bucket, low count and elapsed count kept, good count 0 (R141, step 1). -/
def staled (c : Cadence) : Cadence := { c with state := .stale, goodCount := 0 }

/-- Steps 2 to 5 of R141 for a source that has just entered STALE from `left`. The order of steps 3 and 4 is free
(R141, R124). -/
def staleEffects (src : SourceId) (left : CadenceState) (s : State) : State :=
  let c := s.cadence[src]
  let s1 := if left = .recovering then s else postEvent (evSourceStale src left c.baseline c.elapsed) s
  evaluateIndicators (inEitherOrder (markStale src) (evaluateFailover (some src) true) s1)

/-- A record's elapsed count at a tick (R137, step 1). -/
def ticked (c : Cadence) : Cadence :=
  if c.state = .disabled then c else { c with elapsed := min Config.cadenceTop (c.elapsed + 1) }

/-- The tick in RUN: every record's elapsed count rises and its limit is tested, at once; then the sources that entered
STALE have their effects, in ascending id (R137, R141). -/
def tickSources (s : State) : State :=
  let risen := Vector.ofFn fun src : Fin 32 => ticked s.cadence[src]
  let due := (List.finRange 32).filter fun src => limitReached s.shadow src risen[src]
  let s1 := due.foldl (fun s src => setCadence src (staled s.cadence[src]) s) { s with cadence := risen }
  due.foldl (fun s src => staleEffects src risen[src].state s) s1

/-! ## Frame starts -/

/-- The baseline rule for a LIVE source at a frame start with interval `i` (R140). -/
def baselineRule (m : Shadow) (src : SourceId) (c : Cadence) (i : Nat) : Cadence :=
  let d : Int := (i : Int) - (c.baseline : Int)
  let bt : Int := (bucketThreshold m src : Nat)
  if d ≥ (upperNoise m src : Int) then { c with lowCount := 0, elapsed := 0 }
  else if d ≤ -(lowerNoise m src : Int) then
    if lowRun m src ≤ c.lowCount + 1 then { c with baseline := max 1 i, bucket := 0, lowCount := 0, elapsed := 0 }
    else { c with lowCount := c.lowCount + 1, elapsed := 0 }
  else
    let b := c.bucket + d
    if b ≥ bt then
      { c with baseline := min Config.cadenceTop (c.baseline + 1), bucket := 0, lowCount := 0, elapsed := 0 }
    else if b ≤ -bt then { c with baseline := max 1 (c.baseline - 1), bucket := 0, lowCount := 0, elapsed := 0 }
    else { c with bucket := b, lowCount := 0, elapsed := 0 }

/-- The recovery limit, max(1, B + SM − HY), without saturation (R142). -/
def recoveryLimit (m : Shadow) (src : SourceId) (c : Cadence) : Nat :=
  max 1 (c.baseline + staleMargin m src - hysteresis m src)

/-- The record after a frame start of a RECOVERING source with interval `i` (R142). -/
def recoveryRule (m : Shadow) (src : SourceId) (c : Cadence) (i : Nat) : Cadence :=
  let frames := min Config.cadenceTop (c.recoveryFrames + 1)
  if i ≤ recoveryLimit m src c then
    if recoveryCount m src ≤ c.goodCount + 1 then
      { c with
        state := .live, baseline := if c.baseline = 0 then max 1 i else c.baseline, bucket := 0, lowCount := 0
        goodCount := 0, elapsed := 0, recoveryFrames := frames }
    else { c with goodCount := c.goodCount + 1, elapsed := 0, recoveryFrames := frames }
  else { c with goodCount := 1, elapsed := 0, recoveryFrames := frames }

/-- The record a frame start leaves, by the state it finds (R139). -/
def frameRecord (m : Shadow) (src : SourceId) (c : Cadence) : Cadence :=
  match c.state with
  | .disabled => c
  | .awaiting => { c with state := .learning, elapsed := 0 }
  | .learning => { c with state := .live, baseline := max 1 c.elapsed, bucket := 0, lowCount := 0, elapsed := 0 }
  | .live => baselineRule m src c c.elapsed
  | .stale => { c with state := .recovering, goodCount := 1, recoveryFrames := 1, elapsed := 0 }
  | .recovering => recoveryRule m src c c.elapsed

/-- A frame start acts on the source's cadence record; a change of state is followed by the evaluations, and recovery
reaching LIVE is reported first (R139, R142, R138 note 3). -/
def cadenceFrame (src : SourceId) (s : State) : State :=
  let c := s.cadence[src]
  let c' := frameRecord s.shadow src c
  let s1 := setCadence src c' s
  if c'.state = c.state then s1
  else
    let s2 := if c.state = .recovering then postEvent (evSourceLive src c'.baseline c'.recoveryFrames) s1 else s1
    cadenceMoved src s2

/-- The Layout Store's side of a frame start: it opens the gates that meet the conditions of R62. -/
def openGates (src : SourceId) (s : State) : State :=
  (List.finRange 64).foldl (fun s w =>
    let r := s.active.records[w]
    if r.window.state ≠ .unused ∧ r.effective = src.val ∧ s.gates[w] = .armed ∧ s.commit.state ≠ .inFlight
        ∧ s.fillCount[w] = 0 then setGate w .opened s
    else s) s

/-- A frame start of a source: the Cadence Monitor and the Layout Store take it in either order (R44, R45), and the
Expansion Queue clears the overrun flag (R96). -/
def frameStart (src : SourceId) (s : State) : State :=
  inEitherOrder (cadenceFrame src) (openGates src) { s with overrun := put s.overrun src false }

/-! ## Modes and resets (R143) -/

/-- The ENABLED sources in ascending id. -/
def enabledSources (s : State) : List SourceId := (List.finRange 32).filter fun src => s.apertures[src].isSome

/-- Every ENABLED source's record becomes AWAITING and zero; the evaluations follow (R143, R138 note 3). -/
def awaitAll (s : State) : State :=
  let srcs := enabledSources s
  cadencesMoved srcs (srcs.foldl (fun s src => setCadence src (Cadence.zeroed .awaiting) s) s)

end Sys2Proof.Machine
end

