-- ==== Sys2Proof/Machine/Expand.lean ====
section
/-! DEFINITION. The Write Expander: decoding a write into a source run (R41 to R43, R68), sampling (R70 to R75), and the
next record of a run in expansion order (R76 to R84). -/

namespace Sys2Proof.Machine

/-! ## Decoding -/

/-- Pixel `i` of a write: its four data bytes as one value, the first one lowest (log entry 35), and their strobes
(R41). -/
def txnPixel (t : Txn) (i : Nat) : Pixel :=
  let b := fun j => t.data.getD (4 * i + j) 0
  let st := fun j => t.strobes.getD (4 * i + j) false
  { value := wordOf (b 0) (b 1) (b 2) (b 3)
    strobes := BitVec.ofNat 4 ((st 0).toNat + 2 * (st 1).toNat + 4 * (st 2).toNat + 8 * (st 3).toNat) }

/-- The offset of a write in an aperture (R41). -/
def apertureOffset (a : Aperture) (t : Txn) : Nat := t.address.toNat - a.base

/-- The source run of an aperture write: its line, first column and kept pixels, those of columns below FW (R41, R42,
R68). -/
def decodeRun (m : Shadow) (src : SourceId) (a : Aperture) (t : Txn) : Run :=
  let o := apertureOffset a t
  let x := o % a.pitch / 4
  let kept := min (t.length / 4) (a.frameWidth - x)
  { source := src, line := o / a.pitch, column := x, pixels := (List.range kept).map (txnPixel t)
    cls := sourceClass m src }

/-! ## Sampling -/

/-- The first destination position that shows source position `k` or a later one, of a crop of `n` shown in `d`
positions: max(0, ceil((2kd − n) / 2n)) (R72, R74). -/
def firstDest (k n d : Nat) : Nat := (2 * k * d - n + (2 * n - 1)) / (2 * n)

/-- The source position that destination position `u` shows: floor((2u + 1) n / 2d) (R72, R74). -/
def sampled (u n d : Nat) : Nat := (2 * u + 1) * n / (2 * d)

/-- The wall rectangle a run fills in a window before the wall, the bezels and occlusion take their parts: columns
`x0..x1-1`, rows `y0..y1-1` (R74). -/
structure DestBox where
  x0 : Nat
  x1 : Nat
  y0 : Nat
  y1 : Nat
deriving DecidableEq, Repr

/-- Whether a record is a candidate for a run (R70). -/
def isCandidate (run : Run) (g : Gate) (r : LayoutRecord) : Bool :=
  let w := r.window
  w.state == .shown && r.effective == run.source.val && g == .opened
    && decide (w.cy ≤ run.line) && decide (run.line < w.cy + w.ch)
    && decide (max run.column w.cx < min (run.column + run.pixels.length) (w.cx + w.cw))

/-- The destination rectangle of a run in a window; none where the window is no candidate (R70 to R74). -/
def destBox (run : Run) (g : Gate) (r : LayoutRecord) : Option DestBox :=
  if isCandidate run g r then
    let w := r.window
    let a0 := max run.column w.cx - w.cx
    let aEnd := min (run.column + run.pixels.length) (w.cx + w.cw) - w.cx
    let b := run.line - w.cy
    some
      { x0 := w.dx + firstDest a0 w.cw w.dw
        x1 := w.dx + min w.dw (firstDest aEnd w.cw w.dw)
        y0 := w.dy + firstDest b w.ch w.dh
        y1 := w.dy + min w.dh (firstDest (b + 1) w.ch w.dh) }
  else none

/-! ## Destination pixels of one row -/

/-- One destination pixel: its wall column, its panel and place there, and its value and strobes (R75, R77). -/
structure DestPixel where
  x : Nat
  panel : PanelId
  ox : Nat
  oy : Nat
  pixel : Pixel
deriving DecidableEq, Repr

/-- The destination pixel of a window at a wall position, in a layout version: on the wall and on a panel (R76, R77)
that uses this version (R78), not occluded (R80); none where there is none. -/
def destPixel (s : State) (c : Copy) (l : Layout) (run : Run) (w : Window) (x y : Nat) : Option DestPixel :=
  match locate s.geometry x y with
  | none => none
  | some (p, ox, oy) =>
    if s.selection[p] = c ∧ occluded l w.layer x y = false then
      let a := sampled (x - w.dx) w.cw w.dw
      some { x := x, panel := p, ox := ox, oy := oy, pixel := run.pixels.getD (w.cx + a - run.column) ⟨0, 0⟩ }
    else none

/-- The destination pixels of a window on one wall row in a layout version, from wall column `minX` on, by ascending
column. -/
def rowPixels (s : State) (c : Copy) (l : Layout) (run : Run) (w : WindowId) (y minX : Nat) : List DestPixel :=
  match destBox run s.gates[w] l.records[w] with
  | none => []
  | some b =>
    if b.y0 ≤ y ∧ y < b.y1 then
      (List.range' (max b.x0 minX) (b.x1 - max b.x0 minX)).filterMap fun x =>
        destPixel s c l run l.records[w].window x y
    else []

/-- The leading record of a row's pixels: consecutive columns of one panel, up to the last pixel of a 256-byte block
(R82). -/
def leadPiece : List DestPixel → List DestPixel
  | [] => []
  | d :: rest =>
    if (d.ox + 1) % 64 = 0 then [d]
    else match leadPiece rest with
      | [] => [d]
      | e :: es => if e.x = d.x + 1 ∧ e.panel = d.panel then d :: e :: es else [d]

/-! ## The next record -/

/-- The record a lead piece makes, with its panel's epoch at this moment (R79, R82). -/
def makeRecord (s : State) (run : Run) (w : WindowId) (d : DestPixel) (piece : List DestPixel) : Record :=
  { window := w, source := run.source, panel := d.panel, epoch := s.panelEpoch[d.panel]
    address := pixelAddress s.geometry d.panel d.ox d.oy, pixels := piece.map (·.pixel) }

/-- The layout versions that exist (R70). -/
def versions (s : State) : List (Copy × Layout) :=
  match s.next with
  | none => [(.active, s.active)]
  | some l => [(.active, s.active), (.next, l)]

/-- The lead piece of a row with the smaller first column: a record lies on one panel, so in one version (R78, R83). -/
def firstPiece : List (List DestPixel) → List DestPixel
  | [] => []
  | row :: rows =>
    match row, firstPiece rows with
    | [], q => q
    | d :: ds, [] => leadPiece (d :: ds)
    | d :: ds, e :: es => if d.x ≤ e.x then leadPiece (d :: ds) else e :: es

/-- The first record of a window on a wall row, from column `minX` on. -/
def rowRecord (s : State) (run : Run) (w : WindowId) (y minX : Nat) : Option (Record × Position) :=
  match firstPiece ((versions s).map fun v => rowPixels s v.1 v.2 run w y minX) with
  | [] => none
  | d :: ds => some (makeRecord s run w d (d :: ds), { window := w.val, row := y, col := d.x })

/-- A number put in its place in a rising list, once. -/
def insertRow (y : Nat) : List Nat → List Nat
  | [] => [y]
  | z :: rest => if y < z then y :: z :: rest else if y = z then z :: rest else z :: insertRow y rest

/-- The wall rows a window's destination rectangles have, over all versions, by ascending row. -/
def windowRows (s : State) (run : Run) (w : WindowId) : List Nat :=
  (versions s).foldl (fun rows v =>
    match destBox run s.gates[w] v.2.records[w] with
    | none => rows
    | some b => (List.range' b.y0 (b.y1 - b.y0)).foldl (fun rows y => insertRow y rows) rows) []

/-- The first record of a run in expansion order, of the destination pixels at or after a place (R83, R84, R85). -/
def nextRecord (s : State) (run : Run) (from_ : Position) : Option (Record × Position) :=
  (List.finRange 64).findSome? fun w =>
    if w.val < from_.window then none
    else (windowRows s run w).findSome? fun y =>
      if w.val = from_.window then
        if y < from_.row then none
        else rowRecord s run w y (if y = from_.row then from_.col else 0)
      else rowRecord s run w y 0

/-- The start of expansion order. -/
def Position.first : Position := { window := 0, row := 0, col := 0 }

/-- The place just after a record's last pixel (R84). -/
def placeAfter (r : Record) (p : Position) : Position := { p with col := p.col + r.pixels.length }

end Sys2Proof.Machine
end

