-- ==== Sys2Proof/Machine/Ops.lean ====
section
/-! DEFINITION. The named operations of the ports and the queues: responses and the pass-through path (R3, R10),
admission, expansion over time, holds and the walk (R84 to R95), own-write answers (R17, R18). -/

namespace Sys2Proof.Machine

/-! ## The ingest port and the pass-through path -/

/-- Give a response at the ingest port (R3). -/
def respond (r : Response) (s : State) : State := { s with ingestOut := s.ingestOut ++ [r] }

/-- The part's own response to a transaction (R3). -/
def responseTo (t : Txn) (st : Status) : Response :=
  { initiator := t.initiator, linkTag := t.linkTag, status := st, data := [] }

/-- Answer a transaction with a response of the part's own (R3). -/
def answer (t : Txn) (st : Status) (s : State) : State := respond (responseTo t st) s

/-- A transaction joins the pass-through FIFO at the tail, or waits for room (R10). -/
def enterPass (t : Txn) (s : State) : State :=
  if s.passFifo.length < Config.fifoCapacity ∧ s.passWait = [] then { s with passFifo := s.passFifo ++ [t] }
  else { s with passWait := s.passWait ++ [t] }

/-- Whether an initiator's taking has not ended: its write is held (R11), or its transaction waits for the path (R10). -/
def takingBlocked (s : State) (i : Initiator) : Bool :=
  s.holds.any (fun h => h.txn.initiator == i) || s.passWait.any (fun t => t.initiator == i)

/-! ## Admission to the Expansion Queue -/

/-- The share count of a source: its queued records (R90). -/
def share (s : State) (src : SourceId) : Nat := s.queue.countP fun r => r.source == src

/-- The admission test (R91). -/
def admissible (s : State) (src : SourceId) : Bool :=
  decide (s.queue.length < Config.queueCapacity) && decide (share s src < Config.shareLimit)

/-- The refusal reason: QUEUE_FULL 1, or SHARE_FULL 2 (R91, R172). -/
def refusalReason (s : State) : Nat := if Config.queueCapacity ≤ s.queue.length then 1 else 2

/-- Admit a record at the tail (R91). -/
def enqueue (r : Record) (s : State) : State := setQueue (s.queue ++ [r]) s

/-! ## Expansion over time -/

/-- How a stretch of expansion ends: the run is complete, or a record is refused. -/
inductive Stretch where
  | complete
  | refused (r : Record) (place : Position)
deriving DecidableEq, Repr

/-- Make and offer the records of a run one after another from a place on (R84). A stretch admits at most 64 records,
since the share limit then refuses the next (R91); `fuel` counts the offers left. -/
def expandFrom : Nat → Run → Position → State → State × Stretch
  | 0, _, _, s => (s, .complete)
  | fuel + 1, run, from_, s =>
    match nextRecord s run from_ with
    | none => (s, .complete)
    | some (r, p) =>
      if admissible s r.source then expandFrom fuel run (placeAfter r p) (enqueue r s)
      else (s, .refused r p)

/-- One stretch of a run's expansion from a place on. -/
def expandStretch (run : Run) (from_ : Position) (s : State) : State × Stretch :=
  expandFrom (Config.shareLimit + 1) run from_ s

/-- An aperture write's expansion is complete: DONE in DIVERT, the copy in COPY, by the mode at this moment (R7, R47,
R88). -/
def finishAperture (t : Txn) (src : SourceId) (s : State) : State :=
  match apertureMode s.shadow src with
  | .divert => answer t .done s
  | .copy => enterPass t s

/-! ## The walk of the hold list (R93) -/

/-- The waiting record that is offered at a write's turn, with its place: the record itself, or where it is out of date
the record that takes its place (R85). -/
def offeredAtTurn (s : State) (h : Held) : Option (Record × Position) :=
  if h.waiting.epoch = s.panelEpoch[h.waiting.panel] ∧ h.latched = false then some (h.waiting, h.place)
  else nextRecord s h.run h.place

/-- A held write with another waiting record, made now. -/
def withWaiting (h : Held) (r : Record) (p : Position) : Held := { h with waiting := r, place := p, latched := false }

/-- The turns of the writes in list order: each with whether its waiting record was admitted; a write whose expansion
finds no record is answered and leaves (R93). -/
def walkTurns : List Held → State → State × List (Held × Bool)
  | [], s => (s, [])
  | h :: rest, s =>
    match offeredAtTurn s h with
    | none => walkTurns rest (finishAperture h.txn h.run.source s)
    | some (r, p) =>
      if admissible s r.source then
        let q := walkTurns rest (enqueue r s)
        (q.1, (withWaiting h r p, true) :: q.2)
      else
        let q := walkTurns rest s
        (q.1, (withWaiting h r p, false) :: q.2)

/-- After the turns, each write whose record was admitted goes on with its expansion (R93, R84). -/
def walkContinue : List (Held × Bool) → State → State × List Held
  | [], s => (s, [])
  | (h, false) :: rest, s =>
    let q := walkContinue rest s
    (q.1, h :: q.2)
  | (h, true) :: rest, s =>
    match expandStretch h.run (placeAfter h.waiting h.place) s with
    | (s', .complete) => walkContinue rest (finishAperture h.txn h.run.source s')
    | (s', .refused r p) =>
      let q := walkContinue rest s'
      (q.1, withWaiting h r p :: q.2)

/-- A walk of the hold list (R93). -/
def walk (s : State) : State :=
  let turns := walkTurns s.holds s
  let after := walkContinue turns.2 turns.1
  { after.1 with holds := after.2 }

/-- The purge of a panel's records of a former epoch, and the walk that follows (R97). -/
def purge (p : PanelId) (epoch : Half) (s : State) : State :=
  let kept := s.queue.filter fun r => !(r.panel == p && r.epoch != epoch)
  walk (if kept.length = s.queue.length then s else setQueue kept s)

/-! ## Taking an aperture write -/

/-- A LIVE record is refused: LIVE_OVERRUN once a frame, the overrun flag SET (R95). -/
def liveOverrun (by_ : Initiator) (run : Run) (r : Record) (s : State) : State :=
  if s.overrun[run.source] then s
  else postEvent (evLiveOverrun run.source by_ (refusalReason s) run.line r.window r.panel)
    { s with overrun := put s.overrun run.source true }

/-- Expand a run just handed over, and answer or hold its write (R84, R85, R88, R94, R95). -/
def expandNew (t : Txn) (run : Run) (s : State) : State :=
  match expandStretch run Position.first s with
  | (s', .complete) => finishAperture t run.source s'
  | (s', .refused r p) =>
    match run.cls with
    | .live => finishAperture t run.source (liveOverrun t.initiator run r s')
    | .stallable => { s' with
        holds := s'.holds ++ [{ txn := t, run := run, waiting := r, place := p, latched := false }] }

/-- Take an aperture write of a source: the frame start if it is at offset 0, then the expansion (R7, R44). -/
def takeAperture (t : Txn) (src : SourceId) (a : Aperture) (s : State) : State :=
  let run := decodeRun s.shadow src a t
  expandNew t run (if apertureOffset a t = 0 then frameStart src s else s)

/-! ## Answers and timeouts of the part's own writes -/

/-- The origin of an own write is told of a fault, with the outcome its reason gives a fill channel (R17, R18). -/
def originFault (own : OwnWrite) (o : LastOutcome) (s : State) : State :=
  match own with
  | .expansion _ _ => s
  | .fill c _ _ => channelFault c o s
  | .post off => postEnded off s

/-- The origin of an own write takes its DONE (R129, R166). -/
def originDone (own : OwnWrite) (s : State) : State :=
  match own with
  | .expansion _ _ => s
  | .fill c _ _ => answered c s
  | .post off => postEnded off s

/-- Whether a fault or timeout of an own write posts an event: not of a POST write (R17, R18). -/
def reportsFault : OwnWrite → Bool
  | .post _ => false
  | _ => true

/-- A response for initiator 15, by the state of the entry its tag names (R17). -/
def ownResponse (linkTag : Byte) (st : Status) (s : State) : State :=
  if h : linkTag.toNat < 32 then
    let tag : Tag := ⟨linkTag.toNat, h⟩
    match s.tags[tag] with
    | .free => s
    | .quarantined => releaseQuarantined tag s
    | .busy _ own =>
      let s1 := setTag tag .free s
      match st with
      | .done => originDone own s1
      | .fault =>
        originFault own .fault (if reportsFault own then postEvent (evStoreFault tag own) s1 else s1)
  else s

/-- A response from the store port: for initiators 0 to 14 it is relayed unchanged, for 15 it goes to the Outstanding
Store Table (R3). -/
def storePortResponse (r : Response) (s : State) : State :=
  if r.initiator = thePart then ownResponse r.linkTag r.status s else respond r s

/-- Whether the store timeout of a BUSY entry has been reached (R18). -/
def timeoutReached (s : State) (tag : Tag) : Bool :=
  match s.tags[tag] with
  | .busy issued _ => storeTimeout s.shadow ≤ elapsedMicros s.wallTime issued
  | _ => false

/-- The store timeout of a BUSY entry expires (R18). -/
def expireTag (tag : Tag) (s : State) : State :=
  match s.tags[tag] with
  | .busy _ own =>
    let s1 := originFault own .timeout (quarantineTag tag s)
    if reportsFault own then postEvent (evStoreTimeout tag own) s1 else s1
  | _ => s

end Sys2Proof.Machine
end

