-- ==== Sys2Proof/Machine/CommitOps.lean ====
section
/-! DEFINITION. The Commit Controller: validation (R105), refusal (R106), acceptance (R108, R109), switching a panel
(R110), completion (R114), the switch limit (R113), forcing (R116) and abandonment (R117). -/

namespace Sys2Proof.Machine

/-! ## Validation -/

/-- Whether an extent starting at `a` with size `n` is empty or reaches past `limit` (R105, checks 2 and 3). -/
def extentFails (a n limit : Nat) : Bool := n == 0 || limit < a + n

/-- Whether a scale lies outside 1/16 to 8 (R105, check 4). -/
def scaleFails (crop dest : Nat) : Bool := 16 * dest < crop || 8 * crop < dest

/-- The lowest defined window of lower id on the same layer (R105, check 5). -/
def layerHolder (m : Shadow) (w : WindowId) (layer : Nat) : Option WindowId :=
  (List.finRange 64).find? fun v =>
    decide (v.val < w.val) && (stageWindow m v).state != .unused && (stageWindow m v).layer == layer

/-- The first check of R105 that a defined STAGE window fails, as its reason code and the other window. -/
def windowRefusal (m : Shadow) (w : WindowId) : Option (Nat × Option WindowId) :=
  let r := stageWindow m w
  if 31 < r.primary ∨ 31 < r.alternate.getD 0 then some (1, none)
  else if extentFails r.cx r.cw 4096 ∨ extentFails r.cy r.ch 4096 then some (2, none)
  else if extentFails r.dx r.dw 65536 ∨ extentFails r.dy r.dh 65536 then some (3, none)
  else if scaleFails r.cw r.dw ∨ scaleFails r.ch r.dh then some (4, none)
  else match layerHolder m w r.layer with
    | some v => some (5, some v)
    | none =>
      if r.mode ≠ .off ∧ (r.alternate = none ∨ r.alternate = some r.primary) then some (6, none) else none

/-- Validation of STAGE: the refusal, or none where STAGE is valid (R105). -/
def validate (m : Shadow) : Option CommitRefusal :=
  (List.finRange 64).findSome? fun w =>
    if (stageWindow m w).state = .unused then none
    else (windowRefusal m w).map fun q => { window := w, reason := q.1, other := q.2 }

/-! ## Switching and completion -/

/-- Completion: NEXT moves into ACTIVE, every panel takes ACTIVE with its epoch, the commit ends as `end_` and
COMMIT_DONE is posted (R60, R114; FORCED by R116). -/
def completeCommit (end_ : CommitState) (outcome : CommandOutcome) (s : State) : State :=
  match s.next with
  | none => s
  | some l =>
    let images := ((List.finRange 64).filter fun w =>
      s.active.records[w].window.state != l.records[w].window.state
        || s.active.records[w].effective != l.records[w].effective).map PostItem.image
    let s1 := flagAll images { s with active := l, next := none }
    let s2 := (List.finRange 32).foldl (fun s p => setPanelLayout p .active l.epoch s) s1
    let s3 := setCommit { s2.commit with state := end_, remaining := 0 } s2
    let s4 := postEvent (evCommitDone outcome s.commit.number s.commit.late thePart) s3
    { s4 with commit := { s4.commit with
        switched := Vector.replicate 32 false, changed := Vector.replicate 64 false } }

/-- Whether a panel is switched by a cause of R111 to R113 and R116: a commit is in flight, it is a grid panel, and it
has not switched (R110). -/
def canSwitch (s : State) (p : PanelId) : Bool :=
  s.commit.state == .inFlight && isGrid s.geometry p && !s.commit.switched[p]

/-- One panel takes NEXT: its selection and epoch, the purge of its records, the fill entries, and the commit's count of
panels remaining (R110). -/
def movePanel (p : PanelId) (l : Layout) (s : State) : State :=
  let s1 := fillAtSwitch p l (purge p l.epoch (setPanelLayout p .next l.epoch s))
  setCommit
    { s1.commit with switched := put s1.commit.switched p true, remaining := s1.commit.remaining - 1 } s1

/-- The commit completes when no panel remains (R114). -/
def completeIfLast (end_ : CommitState) (outcome : CommandOutcome) (s : State) : State :=
  if s.commit.remaining = 0 then completeCommit end_ outcome s else s

/-- Switch one panel to NEXT (R110). The commit completes with the last switch, as `end_` (R114, R116). -/
def switchPanel (end_ : CommitState) (outcome : CommandOutcome) (p : PanelId) (s : State) : State :=
  match s.next with
  | none => s
  | some l => if canSwitch s p then completeIfLast end_ outcome (movePanel p l s) else s

/-- Switch a panel on time: at its retrace event or on entering UNSYNCED (R111, R112). -/
def switchOnTime (p : PanelId) (s : State) : State := switchPanel .done .done p s

/-- The late count rises and PANEL_LATE is posted for a panel the switch limit is about to switch (R113). -/
def reportLate (p : PanelId) (s : State) : State :=
  postEvent (evPanelLate p s.sync[p].state s.commit.number)
    { s with commit := { s.commit with late := s.commit.late + 1 } }

/-- At the expiry of the switch limit a panel not yet switched is reported late and switched (R113). -/
def switchLate (p : PanelId) (s : State) : State :=
  if canSwitch s p then switchOnTime p (reportLate p s) else s

/-- The switch limit expires: every grid panel not yet switched, in ascending number (R113). -/
def expireSwitchLimit (s : State) : State := (List.finRange 32).foldl (fun s p => switchLate p s) s

/-- Whether the switch limit of the commit in flight has been reached (R113). -/
def switchLimitReached (s : State) : Bool :=
  s.commit.state == .inFlight && decide (s.commit.limit * 1000 ≤ elapsedMicros s.wallTime s.commit.limitStart)

/-- A commit in flight is forced by the SETUP command: the remaining panels switch, not late (R116). -/
def forceCommit (s : State) : State :=
  (List.finRange 32).foldl (fun s p => switchPanel .forced .forced p s) s

/-! ## The COMMIT command -/

/-- The windows a commit changes, between ACTIVE and a new layout (R107). -/
def changedSet (s : State) (new : Layout) : Vector Bool 64 :=
  Vector.ofFn fun w : Fin 64 => changedWindow s.active.records[w].window new.records[w].window

/-- The windows of a changed set in ascending id. -/
def changedList (v : Vector Bool 64) : List WindowId := (List.finRange 64).filter fun w => v[w]

/-- A refused COMMIT (R106). -/
def refuseCommit (by_ : Initiator) (number : Half) (r : CommitRefusal) (s : State) : State :=
  postEvent (evCommitRefused number r by_)
    (setCommit { s.commit with state := .refused, number := number, remaining := 0, refusal := some r } s)

/-- The start of a commit in RUN: snapshot, changed set, gates, and the Commit Controller's items (R59, R108 steps 1 to
3). -/
def beginCommit (number : Half) (s : State) : State :=
  let l := stagedLayout s.shadow (s.epochCounter + 1)
  let changed := changedSet s l
  let s1 := armGates (changedList changed) { s with epochCounter := s.epochCounter + 1, next := some l }
  setCommit
    { state := .inFlight, number := number, remaining := gridCount s.geometry, switched := Vector.replicate 32 false
      changed := changed, late := 0, limit := switchLimit s.shadow, limitStart := s.wallTime, refusal := none } s1

/-- Acceptance in RUN: the start, the evaluation of NEXT, and the switch of every UNSYNCED grid panel in ascending
number (R108). -/
def acceptInRun (number : Half) (s : State) : State :=
  let s1 := evaluateFailover none false (beginCommit number s)
  (List.finRange 32).foldl (fun s p => if s.sync[p].state = .unsynced then switchOnTime p s else s) s1

/-- A commit in SETUP: ACTIVE is replaced at once (R65, R109). -/
def commitInSetup (by_ : Initiator) (number : Half) (s : State) : State :=
  let l := stagedLayout s.shadow (s.epochCounter + 1)
  let images := ((List.finRange 64).filter fun w =>
    s.active.records[w].window.state != l.records[w].window.state
      || s.active.records[w].effective != l.records[w].effective).map PostItem.image
  let s1 := flagAll images { s with epochCounter := s.epochCounter + 1, active := l }
  let s2 := armGates (changedList (changedSet s l)) s1
  let s3 := (List.finRange 32).foldl (fun s p => setPanelLayout p .active l.epoch s) s2
  let s4 := setCommit { s3.commit with state := .done, number := number, remaining := 0, refusal := none } s3
  let s5 := evaluateFailover none true s4
  postEvent (evCommitDone .done number 0 by_) s5

/-- The detail bytes of a refused COMMIT (R159, R172). -/
def refusalDetail (r : CommitRefusal) : Vector Byte 3 :=
  #v[byteNat r.window.val, byteNat r.reason, byteNat (idOrAbsent (r.other.map (·.val)))]

/-- No detail (R172). -/
def noDetail : Vector Byte 3 := #v[0, 0, 0]

/-- The COMMIT command: the state after it, its outcome and its detail (R104). -/
def commandCommit (by_ : Initiator) (number : Half) (s : State) : State × CommandOutcome × Vector Byte 3 :=
  if s.mode = .run ∧ s.commit.state = .inFlight then (s, .busy, noDetail)
  else match validate s.shadow with
    | some r => (refuseCommit by_ number r s, .refused, refusalDetail r)
    | none => match s.mode with
      | .run => (acceptInRun number s, .accepted, noDetail)
      | .setup => (commitInSetup by_ number s, .done, noDetail)

/-! ## Abandonment by a wall reset -/

/-- A wall reset abandons a commit in flight (R117 steps 1 to 3). -/
def abandonCommit (s : State) : State :=
  if s.commit.state = .inFlight then
    let s1 := setCommit { s.commit with state := .abandoned } s
    let s2 := postEvent (evCommitAbandoned s.commit.number s.commit.remaining) s1
    { s2 with commit := { s2.commit with
        switched := Vector.replicate 32 false, changed := Vector.replicate 64 false, late := 0 } }
  else s

end Sys2Proof.Machine
end

