-- ==== Sys2Proof/Machine/Sources.lean ====
section
/-! DEFINITION. Enabling and disabling a source (R36 to R39), the panel sync monitor (R29 to R32), the RUN entry checks
and the latch of the working geometry (R26, R27). -/

namespace Sys2Proof.Machine

/-! ## Enable and disable -/

/-- The first check of R37 that an enable request fails, as its reason code and detail item. -/
def enableRefusal (s : State) (src : SourceId) : Option (Nat × Option Nat) :=
  let a := shadowAperture s.shadow src
  if a.frameWidth < 1 ∨ 4096 < a.frameWidth ∨ a.frameHeight < 1 ∨ 4096 < a.frameHeight then some (1, none)
  else if a.base % 256 ≠ 0 then some (2, none)
  else if a.pitch % 256 ≠ 0 ∨ a.pitch < 256 ∨ 65280 < a.pitch ∨ a.pitch < a.frameWidth * 4 then some (3, none)
  else if Config.addressSpace < apertureEnd a then some (4, none)
  else if sharesByte a.base (apertureEnd a) (controlBase s) (controlBase s + Config.controlBytes) then some (5, none)
  else match (List.finRange 32).find? fun o =>
      o != src && (match s.apertures[o] with
        | some b => sharesByte a.base (apertureEnd a) b.base (apertureEnd b)
        | none => false) with
    | some o => some (6, some o.val)
    | none =>
      if s.mode = .run then
        ((gridPanels s.geometry).find? fun p =>
          sharesByte a.base (apertureEnd a) s.geometry.panels[p].base (bufferEnd s.geometry p)).map
          fun p => (7, some p.val)
      else none

/-- The windows whose gate an enable of a source arms: the non-UNUSED ones whose effective source it is, in ACTIVE and,
while it exists, in NEXT (R38, R61). -/
def windowsFedBy (s : State) (src : SourceId) : List WindowId :=
  let fed := fun r : LayoutRecord => r.window.state != .unused && r.effective == src.val
  (List.finRange 64).filter fun w =>
    fed s.active.records[w] || (match s.next with
      | some l => fed l.records[w]
      | none => false)

/-- Accept an enable (R38; the evaluations by R138 note 3). -/
def acceptEnable (src : SourceId) (s : State) : State :=
  let s1 := setAperture src (some (shadowAperture s.shadow src)) s
  let s2 := setCadence src (Cadence.zeroed .awaiting) s1
  cadenceMoved src (armGates (windowsFedBy s2 src) s2)

/-- An enable request: accepted, or refused with SOURCE_REFUSED (R36 to R38). -/
def requestEnable (by_ : Initiator) (src : SourceId) (s : State) : State :=
  match enableRefusal s src with
  | some (reason, item) => postEvent (evSourceRefused src reason item by_) s
  | none => acceptEnable src s

/-- Disable a source (R39); its overrun flag clears (R96). -/
def disableSource (src : SourceId) (s : State) : State :=
  let s1 := setAperture src none { s with overrun := put s.overrun src false }
  cadenceMoved src (setCadence src (Cadence.zeroed .disabled) s1)

/-- An accepted write covers a source's enable word (R36, R39): an enable request, a disable, or nothing more. -/
def enableWordWritten (by_ : Initiator) (src : SourceId) (s : State) : State :=
  match enableBit s.shadow src, s.apertures[src] with
  | true, none => requestEnable by_ src s
  | false, some _ => disableSource src s
  | _, _ => s

/-! ## The Panel Sync Monitor -/

/-- Whether a read of a panel is a line-0 read (R29). -/
def isLineZero (s : State) (p : PanelId) (t : Txn) : Bool :=
  (t.address.toNat - s.geometry.panels[p].base) / s.geometry.panels[p].pitch == 0

/-- Whether a read of a panel includes the first byte of line PH − 1 (R29). -/
def isLastLineStart (s : State) (p : PanelId) (t : Txn) : Bool :=
  let start := s.geometry.panels[p].base + (s.geometry.panelHeight - 1) * s.geometry.panels[p].pitch
  decide (t.address.toNat ≤ start) && decide (start < t.address.toNat + t.length)

/-- The sync state after a scanout read, and whether the read is a retrace event (R30). -/
def syncAfterRead (st : SyncState) (lineZero lastStart : Bool) : SyncState × Bool :=
  match st with
  | .unsynced => (if lineZero then .scanning else .unsynced, false)
  | .scanning => if lineZero then (.scanning, false) else if lastStart then (.waiting, true) else (.scanning, false)
  | .waiting => (if lineZero then .scanning else .waiting, false)

/-- Snoop a scanout read: the last read time, the sync state, and the retrace event, which may switch the panel (R29 to
R31, R111). -/
def snoop (p : PanelId) (t : Txn) (s : State) : State :=
  let q := syncAfterRead s.sync[p].state (isLineZero s p t) (isLastLineStart s p t)
  let s1 := setSync p { state := q.1, lastRead := s.wallTime } s
  if q.2 then switchOnTime p s1 else s1

/-- A SCANNING or WAITING panel becomes UNSYNCED with cause LIMIT 1 or CONFIG 2; an UNSYNCED one stays so (R32, R112). -/
def becomeUnsynced (p : PanelId) (cause : Nat) (s : State) : State :=
  let r := s.sync[p]
  if r.state = .unsynced then s
  else switchOnTime p (postEvent (evPanelUnsynced p cause r.state r.lastRead) (setSync p { r with state := .unsynced } s))

/-- Whether a panel's sync limit has been reached (R32). -/
def syncLimitReached (s : State) (p : PanelId) : Bool :=
  isGrid s.geometry p && s.sync[p].state != .unsynced
    && decide (Config.syncLimit ≤ elapsedMicros s.wallTime s.sync[p].lastRead)

/-! ## The RUN entry checks -/

/-- A failed check: its code and its two detail items (R26). -/
abbrev CheckFailure := Nat × Option Nat × Option Nat

/-- Checks 1 to 4 (R26). -/
def wallCheck (g : Geometry) : Option CheckFailure :=
  if g.columns < 1 ∨ 16 < g.columns ∨ g.rows < 1 ∨ 8 < g.rows ∨ 32 < gridCount g then some (1, none, none)
  else if g.panelWidth < 64 ∨ 3840 < g.panelWidth ∨ g.panelHeight < 64 ∨ 2160 < g.panelHeight then some (2, none, none)
  else if 255 < g.bezelX ∨ 255 < g.bezelY then some (3, none, none)
  else if 65535 < wallWidth g ∨ 65535 < wallHeight g then some (4, none, none)
  else none

/-- Checks 5 to 9 of one grid panel (R26). -/
def panelCheck (s : State) (g : Geometry) (p : PanelId) : Option CheckFailure :=
  let r := g.panels[p]
  if r.base % 256 ≠ 0 then some (5, some p.val, none)
  else if r.pitch % 256 ≠ 0 ∨ r.pitch < 256 ∨ 65280 < r.pitch ∨ r.pitch < g.panelWidth * 4 then some (6, some p.val, none)
  else if Config.addressSpace < bufferEnd g p then some (7, some p.val, none)
  else if r.scanout = 15 then some (8, some p.val, none)
  else if sharesByte r.base (bufferEnd g p) (controlBase s) (controlBase s + Config.controlBytes) then
    some (9, some p.val, none)
  else none

/-- Check 10 of one grid panel against every lower-numbered one (R26). -/
def overlapCheck (g : Geometry) (p : PanelId) : Option CheckFailure :=
  ((gridPanels g).find? fun q =>
    decide (q.val < p.val) && sharesByte g.panels[p].base (bufferEnd g p) g.panels[q].base (bufferEnd g q)).map
    fun q => (10, some p.val, some q.val)

/-- Check 11 of one source against every grid panel (R26). -/
def apertureCheck (s : State) (g : Geometry) (src : SourceId) : Option CheckFailure :=
  match s.apertures[src] with
  | none => none
  | some a => ((gridPanels g).find? fun p => sharesByte a.base (apertureEnd a) g.panels[p].base (bufferEnd g p)).map
      fun p => (11, some src.val, some p.val)

/-- The first check of R26 that fails, on the shadowed geometry and the working apertures. -/
def runCheck (s : State) : Option CheckFailure :=
  let g := shadowGeometry s.shadow
  (wallCheck g).or <| ((gridPanels g).findSome? (panelCheck s g)).or <|
    ((gridPanels g).findSome? (overlapCheck g)).or <| (List.finRange 32).findSome? (apertureCheck s g)

/-! ## The latch -/

/-- Whether a panel's working record or the working PH changes at a latch (R27). -/
def panelMoved (old new : Geometry) (p : PanelId) : Bool :=
  old.panels[p] != new.panels[p] || old.panelHeight != new.panelHeight

/-- The latch's effect on one panel's sync record (R27, R33). -/
def latchSync (old new : Geometry) (p : PanelId) (s : State) : State :=
  match isGrid old p, isGrid new p with
  | true, true => if panelMoved old new p then becomeUnsynced p 2 s else s
  | false, false => s
  | _, _ => flag (.panel p) (setSync p { s.sync[p] with state := .unsynced } s)

/-- Latch the shadowed geometry: sync records, fill lists, and the held writes' note of it (R27, R85). -/
def latchGeometry (s : State) : State :=
  let old := s.geometry
  let new := shadowGeometry s.shadow
  let s1 := { s with geometry := new, holds := s.holds.map fun h => { h with latched := true } }
  clearFills ((List.finRange 32).foldl (fun s p => latchSync old new p s) s1)

end Sys2Proof.Machine
end

