-- ==== Sys2Proof/Machine/Control.lean ====
section
/-! DEFINITION. The Control Region Interface: the words of a write, the decision (R153), the shadow phase, and the
effects of each word (R152, R156, R158 to R163). -/

namespace Sys2Proof.Machine

/-! ## The words of a write -/

/-- One 4-byte word a control write covers, with the value the shadow has once it is merged (R152). -/
structure ControlWord where
  index : Nat
  offset : Nat
  merged : Word
deriving DecidableEq, Repr

/-- Whether byte `i` of a write has its strobe on. -/
def strobeOn (t : Txn) (i : Nat) : Bool := t.strobes.getD i false

/-- A word of a write is covered when at least one of its strobes is on (R152). -/
def isCovered (t : Txn) (index : Nat) : Bool :=
  strobeOn t (4 * index) || strobeOn t (4 * index + 1) || strobeOn t (4 * index + 2) || strobeOn t (4 * index + 3)

/-- The byte a merge leaves: the write's where its strobe is on, the shadow's where it is off (R152). -/
def mergedByte (m : Shadow) (t : Txn) (start i : Nat) : Byte :=
  if strobeOn t i then t.data.getD i 0 else shadowRead m (start + i)

/-- The covered words of a control write whose first byte is at offset `start`, in ascending address order (R152). -/
def coveredWords (m : Shadow) (t : Txn) (start : Nat) : List ControlWord :=
  ((List.range (t.length / 4)).filter (isCovered t)).map fun k =>
    { index := k, offset := start + 4 * k
      merged := wordOf (mergedByte m t start (4 * k)) (mergedByte m t start (4 * k + 1))
        (mergedByte m t start (4 * k + 2)) (mergedByte m t start (4 * k + 3)) }

/-- The offset of a control write's first byte in the control region (R172). -/
def controlOffset (s : State) (t : Txn) : Nat := t.address.toNat - controlBase s

/-! ## The decision (R153) -/

/-- The words the part posts (R152, R153). -/
def isPartPosted (off : Nat) : Bool :=
  (decide (0x200 ≤ off) && decide (off < 0x400))
    || (decide (0x3000 ≤ off) && decide (off < 0x3200) && off % 8 == 4)
    || (decide (0x4000 ≤ off) && decide (off < 0x5000))
    || (decide (0x8000 ≤ off) && decide (off < 0x8100))

/-- The words of a geometry field, of the console mask, or of a field of the panel table (R153, R172). -/
def isSetupOnly (off : Nat) : Bool :=
  decide (off < 0x1C) || (decide (0x800 ≤ off) && decide (off < 0xA00))

/-- The window whose staging record holds a word (R153). -/
def stagingWindow (off : Nat) : Option WindowId :=
  if h : 0x2000 ≤ off ∧ off < 0x3000 then some ⟨(off - 0x2000) / 64, by omega⟩ else none

/-- The window whose request word this is (R156). -/
def requestWindow (off : Nat) : Option WindowId :=
  if h : 0x3000 ≤ off ∧ off < 0x3200 ∧ off % 8 = 0 then some ⟨(off - 0x3000) / 8, by omega⟩ else none

/-- Whether a window's staging record is closed to a writer: it is owned by another (R153, R155). -/
def ownedByOther (s : State) (i : Initiator) (w : WindowId) : Bool :=
  match s.owners[w] with
  | .free => false
  | .owned o _ => o != i

/-- The reason a request is refused: NOT_OWNER 4, OWNED 5, NOT_PRIORITY 6, BAD_REQUEST 7 (R156, R172). -/
def requestRefusal (s : State) (i : Initiator) (w : WindowId) (code : Nat) : Option Nat :=
  match code with
  | 0 => none
  | 1 => if ownedByOther s i w then some 5 else none
  | 2 => if s.owners[w] = .free ∨ ownedByOther s i w then some 4 else none
  | 3 => if isPriority s i then none else some 6
  | _ => some 7

/-- The first reason of R153 that holds for a covered word: NOT_CONSOLE 1, PART_POSTED 2, SETUP_ONLY 3, NOT_OWNER 4, or
the request's own. -/
def wordRefusal (s : State) (i : Initiator) (w : ControlWord) : Option Nat :=
  if !isConsole s i then some 1
  else if isPartPosted w.offset then some 2
  else if s.mode = .run ∧ isSetupOnly w.offset then some 3
  else match stagingWindow w.offset with
    | some v => if ownedByOther s i v then some 4 else none
    | none => match requestWindow w.offset with
      | some v => requestRefusal s i v (field w.merged 0 8)
      | none => none

/-! ## The shadow phase -/

/-- The shadow with one accepted word merged in (R152). -/
def mergeWord (m : Shadow) (w : ControlWord) : Shadow := shadowWriteBytes m w.offset (wordBytes w.merged)

/-- The shadow takes every accepted word (R152). -/
def shadowPhase (accepted : List ControlWord) (s : State) : State :=
  { s with shadow := accepted.foldl mergeWord s.shadow }

/-! ## Claim requests (R156) -/

/-- The effect of an accepted request on the ownership table; a SEIZE of a window owned by another posts OWNER_SEIZED
(R156). -/
def requestEffect (i : Initiator) (w : WindowId) (code : Nat) (s : State) : State :=
  match code with
  | 1 => if s.owners[w] = .free then setOwner w (.owned i (isPriority s i)) s else s
  | 2 => setOwner w .free s
  | 3 => match s.owners[w] with
    | .free => setOwner w (.owned i true) s
    | .owned o _ =>
      if o = i then s else postEvent (evOwnerSeized w o i) (setOwner w (.owned i true) s)
  | _ => s

/-! ## Wall reset (R162, R163 and each block's chapter) -/

/-- Every held write is answered DONE and not passed; the queue empties; the overrun flags clear (R12, R100). -/
def resetQueue (s : State) : State :=
  setQueue [] { s with
    holds := [], overrun := Vector.replicate 32 false
    ingestOut := s.ingestOut ++ s.holds.map fun h => responseTo h.txn .done }

/-- Whether a window is owned by the priority console, so that a wall reset keeps it (R66, R163). -/
def isKept (s : State) (w : WindowId) : Bool :=
  match s.owners[w] with
  | .owned _ true => true
  | _ => false

/-- The Layout Store's part of a wall reset (R66). -/
def resetLayouts (s : State) : State :=
  let cleared := (List.finRange 64).filter fun w => !isKept s w
  { s with
    next := none
    shadow := cleared.foldl (fun m w => shadowWriteBytes m (stageOffset w) blankStage) s.shadow
    active :=
      { records := Vector.ofFn fun w : Fin 64 => if isKept s w then s.active.records[w] else LayoutRecord.blank
        epoch := s.epochCounter + 1 }
    epochCounter := s.epochCounter + 1
    selection := Vector.replicate 32 .active
    panelEpoch := Vector.replicate 32 (s.epochCounter + 1)
    gates := Vector.replicate 64 .armed }

/-- The ownership table's part of a wall reset (R163). -/
def resetOwners (s : State) : State :=
  (List.finRange 64).foldl (fun s w => if isKept s w then s else setOwner w .free s) s

/-- The Poster's part of a wall reset: outstanding event writes are taken as ended, every posted item is flagged (R170). -/
def resetPoster (s : State) : State :=
  advanceProducer { s with poster := { s.poster with
    issued := s.poster.issued.map fun e => (e.1, true), flags := allItems } }

/-- A wall reset, reported with this event (R162). The Link Interface and Store Arbiter (R20), the queue (R100), the
layouts (R66), the fills (R133), the sources and cadence (R49, R143), the ownership table (R163) and the Poster (R170).
Of COMMIT_ABANDONED and TAGS_EXHAUSTED, the manual does not say which is handed over first. -/
def wallReset (report : Event) (s : State) : State :=
  let s1 := inEitherOrder abandonCommit quarantineAll s
  let s2 := resetFills (resetLayouts (resetQueue s1))
  let s3 := awaitAll (resetOwners s2)
  postEvent report (resetPoster s3)

/-! ## Commands (R158, R159) -/

/-- The RUN command (R160). -/
def commandRun (by_ : Initiator) (sequence : Half) (s : State) : State × CommandOutcome × Vector Byte 3 :=
  match s.mode with
  | .run => (s, .done, noDetail)
  | .setup => match runCheck s with
    | some (code, a, b) => (s, .geometry, #v[byteNat code, byteNat (idOrAbsent a), byteNat (idOrAbsent b)])
    | none =>
      (awaitAll (postEvent (evModeChanged .setup .run by_ sequence) (setMode .run (latchGeometry s))), .done, noDetail)

/-- The SETUP command (R161, R116). -/
def commandSetup (by_ : Initiator) (sequence : Half) (s : State) : State × CommandOutcome × Vector Byte 3 :=
  match s.mode with
  | .setup => (s, .done, noDetail)
  | .run =>
    let s1 := forceCommit s
    let s2 := postEvent (evModeChanged .run .setup by_ sequence) (setMode .setup s1)
    (awaitAll s2, if s.commit.state = .inFlight then .forced else .done, noDetail)

/-- The WALL_RESET command (R162, R163). -/
def commandWallReset (by_ : Initiator) (sequence : Half) (s : State) : State × CommandOutcome × Vector Byte 3 :=
  (wallReset (evWallResetCommand by_ sequence) s, if s.commit.state = .inFlight then .abandoned else .done, noDetail)

/-- The CANCEL_FILLS command (R131). -/
def commandCancelFills (s : State) : State × CommandOutcome × Vector Byte 3 := (clearFills s, .done, noDetail)

/-- The RELEASE_FAILOVER command (R147, R159). -/
def commandReleaseFailover (by_ : Initiator) (argument : Nat) (s : State) : State × CommandOutcome × Vector Byte 3 :=
  if h : argument < 64 then
    let w : WindowId := ⟨argument, h⟩
    if ownedByOther s by_ w then (s, .notOwner, noDetail) else (releaseFailover by_ w s, .done, noDetail)
  else (s, .refused, #v[1, 0, 0])

/-- The action of a command by its code (R159). -/
def commandAction (by_ : Initiator) (code : Nat) (sequence argument : Half) (s : State) :
    State × CommandOutcome × Vector Byte 3 :=
  match code with
  | 1 => commandCommit by_ argument s
  | 2 => commandRun by_ sequence s
  | 3 => commandSetup by_ sequence s
  | 4 => commandWallReset by_ sequence s
  | 5 => commandCancelFills s
  | 6 => commandReleaseFailover by_ argument.toNat s
  | _ => (s, .unknown, noDetail)

/-- Carry out the command in the command word, whose argument is the shadow's word at 0x0104, and record its result
(R158, R171). -/
def runCommand (by_ : Initiator) (s : State) : State :=
  let word := shadowWord s.shadow 0x100
  let sequence := halfNat (field word 0 16)
  let code := field word 16 8
  let q := commandAction by_ code sequence (halfNat (field (shadowWord s.shadow 0x104) 0 16)) s
  setResult { sequence := sequence, code := byteNat code, outcome := q.2.1, detail := q.2.2 } q.1

/-! ## The effects phase -/

/-- A write that changes BT clears a bucket that lies outside the new threshold (R135). -/
def bucketThresholdWritten (src : SourceId) (before : Shadow) (s : State) : State :=
  let c := s.cadence[src]
  let bt : Int := (bucketThreshold s.shadow src : Nat)
  if bucketThreshold before src ≠ bucketThreshold s.shadow src ∧ (c.bucket ≥ bt ∨ c.bucket ≤ -bt) then
    setCadence src { c with bucket := 0 } s
  else s

/-- The source whose record holds a word, and the word's offset in the record (R172). -/
def sourceWord (off : Nat) : Option (SourceId × Nat) :=
  if h : 0x1000 ≤ off ∧ off < 0x1800 then some (⟨(off - 0x1000) / 64, by omega⟩, (off - 0x1000) % 64) else none

/-- The effect of one accepted word on a source's record (R36, R39, R135). -/
def sourceEffect (by_ : Initiator) (before : Shadow) (src : SourceId) (inRecord : Nat) (s : State) : State :=
  match inRecord with
  | 0x14 => enableWordWritten by_ src s
  | 0x24 => bucketThresholdWritten src before s
  | _ => s

/-- The effect of one accepted word (R152, phase 3). -/
def wordEffect (by_ : Initiator) (before : Shadow) (w : ControlWord) (s : State) : State :=
  if w.offset = 0x34 then updateIrq s
  else if 0x40 ≤ w.offset ∧ w.offset < 0x60 then evaluateIndicators s
  else if w.offset = 0x100 then runCommand by_ s
  else if w.offset = 0x400 then consumerWritten s
  else match sourceWord w.offset with
    | some (src, inRecord) => sourceEffect by_ before src inRecord s
    | none => match requestWindow w.offset with
      | some v => requestEffect by_ v (field w.merged 0 8) s
      | none => s

/-! ## Taking a control write (R8, R152) -/

/-- The write with the strobes of every refused word turned off (R8). -/
def trimmed (t : Txn) (refused : List ControlWord) : Txn :=
  { t with strobes := t.strobes.mapIdx fun i b => b && !(refused.any fun w => w.index == i / 4) }

/-- The covered words that are refused (R153). -/
def refusedWords (s : State) (i : Initiator) (words : List ControlWord) : List ControlWord :=
  words.filter fun w => (wordRefusal s i w).isSome

/-- The covered words that are accepted (R153). -/
def acceptedWords (s : State) (i : Initiator) (words : List ControlWord) : List ControlWord :=
  words.filter fun w => (wordRefusal s i w).isNone

/-- One ACCESS_REFUSED for a write with a refused word, which names the first one (R8, R153). -/
def reportRefused (i : Initiator) (refused : List ControlWord) (s : State) : State :=
  match refused with
  | [] => s
  | w :: _ => postEvent (evAccessRefused i ((wordRefusal s i w).getD 0) w.offset) s

/-- The effects of the accepted words in ascending address order (R152, phase 3); `before` is the shadow before the
write. -/
def effectsPhase (i : Initiator) (before : Shadow) (accepted : List ControlWord) (s : State) : State :=
  accepted.foldl (fun s' w => wordEffect i before w s') s

/-- The write is passed, trimmed, or answered FAULT where every covered word is refused (R8). -/
def concludeControl (t : Txn) (refused accepted : List ControlWord) (s : State) : State :=
  if accepted.isEmpty && !refused.isEmpty then answer t .fault s else enterPass (trimmed t refused) s

/-- Take a control write with these covered words: decision, shadow, effects, and the answer (R8, R152, R153). -/
def takeWords (t : Txn) (words : List ControlWord) (s : State) : State :=
  let refused := refusedWords s t.initiator words
  let accepted := acceptedWords s t.initiator words
  concludeControl t refused accepted
    (effectsPhase t.initiator s.shadow accepted (shadowPhase accepted (reportRefused t.initiator refused s)))

/-- Take a control write (R8, R152). -/
def takeControl (t : Txn) (s : State) : State := takeWords t (coveredWords s.shadow t (controlOffset s t)) s

end Sys2Proof.Machine
end

