-- ==== Sys2Proof/Machine/Link.lean ====
section
/-! DEFINITION. The Link Interface and the Traffic Classifier: the malformed conditions and classes (R4, R5), taking a
transaction (R6 to R9), and the lines of the ingest port (R9, R10). -/

namespace Sys2Proof.Machine

/-! ## Classification -/

/-- The first malformed condition that holds: INITIATOR 1, LENGTH 2, SIZE 3, ALIGN 4, BOUNDARY 5 (R4, R172). -/
def malformedReason (t : Txn) : Option Nat :=
  if t.initiator = 15 then some 1
  else if t.length < 4 ∨ t.length % 4 ≠ 0 then some 2
  else if 256 < t.length then some 3
  else if t.address.toNat % 4 ≠ 0 then some 4
  else if t.address.toNat / 256 ≠ (t.address.toNat + t.length - 1) / 256 then some 5
  else none

/-- Whether any byte of a transaction lies in a byte range. -/
def touches (t : Txn) (lo hi : Nat) : Bool := sharesByte t.address.toNat (t.address.toNat + t.length) lo hi

/-- Whether a malformed transaction is answered FAULT (R4). -/
def malformedFaults (s : State) (t : Txn) (reason : Nat) : Bool :=
  reason == 1 || touches t (controlBase s) (controlBase s + Config.controlBytes)
    || s.apertures.toList.any fun a => match a with
      | some a => touches t a.base (apertureEnd a)
      | none => false

/-- The classes of a well-formed transaction (R5), with what the test found. -/
inductive TrafficClass where
  | controlWrite
  | apertureWrite (src : SourceId) (a : Aperture)
  | scanoutRead (p : PanelId)
  | pass
deriving DecidableEq, Repr

/-- The source whose working aperture holds an address (R5, test 2). -/
def apertureAt (s : State) (addr : Nat) : Option (SourceId × Aperture) :=
  (List.finRange 32).findSome? fun src => match s.apertures[src] with
    | some a => if a.base ≤ addr ∧ addr < apertureEnd a then some (src, a) else none
    | none => none

/-- The grid panel a read is a scanout read of (R5, test 3). -/
def scanoutPanel (s : State) (t : Txn) : Option PanelId :=
  (gridPanels s.geometry).find? fun p =>
    s.geometry.panels[p].scanout == t.initiator.val
      && decide (s.geometry.panels[p].base ≤ t.address.toNat) && decide (t.address.toNat < bufferEnd s.geometry p)

/-- The class of a well-formed transaction: the first test of R5's table that holds. -/
def classify (s : State) (t : Txn) : TrafficClass :=
  match t.kind with
  | .write =>
    if controlBase s ≤ t.address.toNat ∧ t.address.toNat < controlBase s + Config.controlBytes then .controlWrite
    else match s.mode, apertureAt s t.address.toNat with
      | .run, some (src, a) => .apertureWrite src a
      | _, _ => .pass
  | .read => match scanoutPanel s t with
    | some p => .scanoutRead p
    | none => .pass

/-! ## Taking one transaction -/

/-- Take a malformed transaction: FAULT and MALFORMED, or passed unchanged (R4). -/
def takeMalformed (t : Txn) (reason : Nat) (s : State) : State :=
  if malformedFaults s t reason then answer t .fault (postEvent (evMalformed t.initiator reason t.address) s)
  else enterPass t s

/-- Take a transaction at the ingest port, by its class (R4 to R8). -/
def take (t : Txn) (s : State) : State :=
  match malformedReason t with
  | some reason => takeMalformed t reason s
  | none => match classify s t with
    | .controlWrite => takeControl t s
    | .apertureWrite src a => takeAperture t src a s
    | .scanoutRead p => enterPass t (snoop p t s)
    | .pass => enterPass t s

/-! ## The lines of the ingest port -/

/-- The initiators whose next transaction can be taken: one waits, and the taking of the one before has ended (R9). -/
def readyInitiators (s : State) : List Initiator :=
  (List.finRange 16).filter fun i => !s.lines[i].isEmpty && !takingBlocked s i

/-- The initiator whose next transaction is taken, with the state after the choice where several are ready (R9, log
entry 2). -/
def nextReady (s : State) : Option (Initiator × State) :=
  match readyInitiators s with
  | [] => none
  | [i] => some (i, s)
  | i :: rest =>
    some ((i :: rest).getD (Config.pick s.choices % (rest.length + 1)) i, { s with choices := s.choices + 1 })

/-- Take waiting transactions, one of a ready initiator at a time, while any can be taken (R9, R11). Each takes one off
the lines, so `fuel` is their number. -/
def serveLines : Nat → State → State
  | 0, s => s
  | fuel + 1, s =>
    match nextReady s with
    | none => s
    | some (i, s') => match s'.lines[i] with
      | [] => s'
      | t :: rest => serveLines fuel (take t { s' with lines := put s'.lines i rest })

/-- The number of transactions that wait on the lines. -/
def waitingCount (s : State) : Nat := (s.lines.toList.map List.length).sum

/-- The ingest port takes whatever can be taken after a step; nothing while PONRST is asserted (R9, R164). -/
def serve (s : State) : State := if s.ponrst then s else serveLines (waitingCount s) s

/-- Whether an arriving transaction can be taken at once: the part is not in reset, no earlier one of its initiator
waits, and the taking of the one before has ended (R9, R164). -/
def canTake (s : State) (i : Initiator) : Bool := !s.ponrst && s.lines[i].isEmpty && !takingBlocked s i

/-- A transaction arrives at the ingest port: it is taken, or it waits in its initiator's line (R9). -/
def arrive (t : Txn) (s : State) : State :=
  if canTake s t.initiator then serve (take t s)
  else { s with lines := put s.lines t.initiator (s.lines[t.initiator] ++ [t]) }

/-- An event takes place, and then the ingest port takes what can be taken; while PONRST is asserted no event of the
part's blocks takes place (R164). -/
def inService (f : State → State) (s : State) : State := if s.ponrst then s else serve (f s)

end Sys2Proof.Machine
end

