-- ==== Sys2Proof/Machine/Operands.lean ====
section
/-! DEFINITION. The operand forms of the console rows: the one control write that each of them stands for, whole words
with every strobe on (R8, R152, R172). -/

namespace Sys2Proof.Machine

/-- The WRITE that carries these bytes from an offset of the control region on, every strobe on (R2, R172). -/
def controlTxn (s : State) (from_ : Sender) (off : Nat) (bytes : List Byte) : Txn :=
  { kind := .write, initiator := from_.initiator, linkTag := from_.linkTag, address := controlAddress s off
    length := bytes.length, data := bytes, strobes := List.replicate bytes.length true }

/-- The bytes of several words, in memory order. -/
def bytesOf (ws : List Word) : List Byte := ws.flatMap wordBytes

/-- The enable word of a source: enable bit 0, class bit 1, mode bit 2 (R172). -/
def enableWord (enable live copy : Bool) : Word := wordNat (enable.toNat + 2 * live.toNat + 4 * copy.toNat)

/-- The offset of a source's enable word (R172). -/
def enableOffset (src : SourceId) : Nat := sourceOffset src + 0x14

/-- The five words of a source's geometry fields, from the record's first offset on (R172). -/
def geometryWords (g : ApertureWords) : List Word :=
  [g.base.extractLsb' 0 32, (g.base.extractLsb' 32 8).setWidth 32, g.pitch.setWidth 32, g.frameWidth.setWidth 32,
    g.frameHeight.setWidth 32]

/-- A write of a source's enable word alone, or of its geometry words and its enable word together (R36). -/
def enableTxn (s : State) (from_ : Sender) (src : SourceId) (geometry : Option ApertureWords)
    (enable live copy : Bool) : Txn :=
  match geometry with
  | none => controlTxn s from_ (enableOffset src) (bytesOf [enableWord enable live copy])
  | some g => controlTxn s from_ (sourceOffset src) (bytesOf (geometryWords g ++ [enableWord enable live copy]))

/-- The offset of a window's request word (R172). -/
def requestOffset (w : WindowId) : Nat := 0x3000 + 8 * w.val

/-- A write of a window's request word (R156). -/
def requestTxn (s : State) (from_ : Sender) (w : WindowId) (code : Nat) : Txn :=
  controlTxn s from_ (requestOffset w) (bytesOf [wordNat code])

/-- The command word: sequence and code (R172). -/
def commandWord (sequence : Half) (code : Byte) : Word := wordNat (sequence.toNat + 65536 * code.toNat)

/-- A write of the command word alone (R158). -/
def commandTxn (s : State) (from_ : Sender) (sequence : Half) (code : Byte) : Txn :=
  controlTxn s from_ 0x100 (bytesOf [commandWord sequence code])

/-- A write of the command word and its argument together (R171). -/
def argumentTxn (s : State) (from_ : Sender) (sequence : Half) (code : Byte) (argument : Half) : Txn :=
  controlTxn s from_ 0x100 (bytesOf [commandWord sequence code, argument.setWidth 32])

/-- A write of the consumer index (R166). -/
def consumerTxn (s : State) (from_ : Sender) (value : Word) : Txn := controlTxn s from_ 0x400 (bytesOf [value])

/-- The offset of an indicator line's definition (R172). -/
def indicatorOffset (line : Fin 4) : Nat := 0x40 + 8 * line.val

/-- A write of an indicator line's two words (R148). -/
def indicatorTxn (s : State) (from_ : Sender) (line : Fin 4) (mask : Word) (all invert : Bool) : Txn :=
  controlTxn s from_ (indicatorOffset line) (bytesOf [mask, wordNat (all.toNat + 2 * invert.toNat)])

/-- The offset of a source's bucket threshold (R172). -/
def thresholdOffset (src : SourceId) : Nat := sourceOffset src + 0x24

/-- A write of a source's bucket threshold (R135). -/
def thresholdTxn (s : State) (from_ : Sender) (src : SourceId) (threshold : Half) : Txn :=
  controlTxn s from_ (thresholdOffset src) (bytesOf [threshold.setWidth 32])

/-- A write of the interrupt enable (R167). -/
def interruptTxn (s : State) (from_ : Sender) (enable : Bool) : Txn :=
  controlTxn s from_ 0x34 (bytesOf [wordNat enable.toNat])

end Sys2Proof.Machine
end

