-- ==== Sys2Proof/Machine/Console.lean ====
section
/-! DEFINITION. The meanings of the console rows: source requests, claim requests, commands and parameter writes, each
the arrival of the control write that its operands spell (R152, R172). -/

namespace Sys2Proof.Machine

/-- ENABLE_REQUEST (R36). -/
def execEnableRequest (from_ : Sender) (src : SourceId) (geometry : Option ApertureWords) (live copy : Bool)
    (s : State) : Host.Outcome State Fault Refusal :=
  .next (arrive (enableTxn s from_ src geometry true live copy) s)

/-- SOURCE_DISABLE (R39). -/
def execSourceDisable (from_ : Sender) (src : SourceId) (live copy : Bool) (s : State) :
    Host.Outcome State Fault Refusal :=
  .next (arrive (enableTxn s from_ src none false live copy) s)

/-- CLAIM (R156). -/
def execClaim (from_ : Sender) (w : WindowId) (s : State) : Host.Outcome State Fault Refusal :=
  .next (arrive (requestTxn s from_ w 1) s)

/-- RELEASE (R156). -/
def execRelease (from_ : Sender) (w : WindowId) (s : State) : Host.Outcome State Fault Refusal :=
  .next (arrive (requestTxn s from_ w 2) s)

/-- SEIZE (R156). -/
def execSeize (from_ : Sender) (w : WindowId) (s : State) : Host.Outcome State Fault Refusal :=
  .next (arrive (requestTxn s from_ w 3) s)

/-- COMMIT (R104). -/
def execCommit (from_ : Sender) (sequence number : Half) (s : State) : Host.Outcome State Fault Refusal :=
  .next (arrive (argumentTxn s from_ sequence 1 number) s)

/-- RUN (R160). -/
def execRun (from_ : Sender) (sequence : Half) (s : State) : Host.Outcome State Fault Refusal :=
  .next (arrive (commandTxn s from_ sequence 2) s)

/-- SETUP (R161). -/
def execSetup (from_ : Sender) (sequence : Half) (s : State) : Host.Outcome State Fault Refusal :=
  .next (arrive (commandTxn s from_ sequence 3) s)

/-- WALL_RESET (R162). -/
def execWallReset (from_ : Sender) (sequence : Half) (s : State) : Host.Outcome State Fault Refusal :=
  .next (arrive (commandTxn s from_ sequence 4) s)

/-- CANCEL_FILLS (R131). -/
def execCancelFills (from_ : Sender) (sequence : Half) (s : State) : Host.Outcome State Fault Refusal :=
  .next (arrive (commandTxn s from_ sequence 5) s)

/-- RELEASE_FAILOVER (R147). -/
def execReleaseFailover (from_ : Sender) (sequence argument : Half) (s : State) : Host.Outcome State Fault Refusal :=
  .next (arrive (argumentTxn s from_ sequence 6 argument) s)

/-- UNKNOWN_COMMAND (R159): the code is the sender's. -/
def execUnknownCommand (from_ : Sender) (sequence : Half) (code : Byte) (argument : Half) (s : State) :
    Host.Outcome State Fault Refusal :=
  .next (arrive (argumentTxn s from_ sequence code argument) s)

/-- CONSUMER_INDEX_WRITE (R166). -/
def execConsumerIndexWrite (from_ : Sender) (value : Word) (s : State) : Host.Outcome State Fault Refusal :=
  .next (arrive (consumerTxn s from_ value) s)

/-- INDICATOR_DEFINITION_WRITE (R148, R149). -/
def execIndicatorDefinitionWrite (from_ : Sender) (line : Fin 4) (mask : Word) (all invert : Bool) (s : State) :
    Host.Outcome State Fault Refusal :=
  .next (arrive (indicatorTxn s from_ line mask all invert) s)

/-- BUCKET_THRESHOLD_WRITE (R135). -/
def execBucketThresholdWrite (from_ : Sender) (src : SourceId) (threshold : Half) (s : State) :
    Host.Outcome State Fault Refusal :=
  .next (arrive (thresholdTxn s from_ src threshold) s)

/-- INTERRUPT_ENABLE_WRITE (R167). -/
def execInterruptEnableWrite (from_ : Sender) (enable : Bool) (s : State) : Host.Outcome State Fault Refusal :=
  .next (arrive (interruptTxn s from_ enable) s)

end Sys2Proof.Machine
end

