-- ==== Sys2Proof/Machine/Pins.lean ====
section
/-! DEFINITION. The meanings of the events at the pins: WRST_PULSE, PONRST_ASSERT and PONRST_RELEASE (R162, R164). -/

namespace Sys2Proof.Machine

/-- PONRST is asserted: the IRQ pin and the indicator pins are held low (R164, R167, R149). -/
def assertReset (s : State) : State :=
  { s with ponrst := true, irq := false, indicators := Vector.replicate 4 false }

/-- PONRST is released: the straps are sampled, and every block stands at its power-on values. What waits at the ingest
port still waits there; the records of what left the two ports stay (R164). -/
def releaseReset (baseStrap : Byte) (prioStrap : Initiator) (s : State) : State :=
  { State.powerOn baseStrap prioStrap with
    lines := s.lines, ingestOut := s.ingestOut, storeOut := s.storeOut, choices := s.choices, pending := s.pending }

/-- WRST_PULSE: one wall reset with cause PIN; no effect while PONRST is asserted (R162). -/
def execWrstPulse (s : State) : Host.Outcome State Fault Refusal := .next (inService (wallReset evWallResetPin) s)

/-- PONRST_ASSERT (R164). -/
def execPonrstAssert (s : State) : Host.Outcome State Fault Refusal := .next (assertReset s)

/-- PONRST_RELEASE (R164): a release while PONRST is not asserted is no event. -/
def execPonrstRelease (baseStrap : Byte) (prioStrap : Initiator) (s : State) : Host.Outcome State Fault Refusal :=
  .next (if s.ponrst then serve (releaseReset baseStrap prioStrap s) else s)

end Sys2Proof.Machine
end

