-- ==== Sys2Proof/Machine/Grants.lean ====
section
/-! DEFINITION. The Store Arbiter: its ring, eligibility, and the four grants (R13, R14, R16, R92, R129, R168). -/

namespace Sys2Proof.Machine

/-- The ring order of a search, starting with the requester after the last granted (R14). -/
def ringAfter : Requester → List Requester
  | .pass => [.expansion, .fill, .post, .pass]
  | .expansion => [.fill, .post, .pass, .expansion]
  | .fill => [.post, .pass, .expansion, .fill]
  | .post => [.pass, .expansion, .fill, .post]

/-- The write a channel offers: the first one of its row in progress, while it is ACTIVE (R125, R129). -/
def channelOffer (c : ChannelId) (s : State) : Option (ChannelId × FillWrite) :=
  if (getChannel c s).state = .active then (getChannel c s).row.head?.map fun w => (c, w) else none

/-- What the FILL requester offers: the next write of the ACTIVE channel (R13). -/
def fillOffer (s : State) : Option (ChannelId × FillWrite) := (channelOffer .zero s).or (channelOffer .one s)

/-- Whether a requester is eligible (R13). -/
def eligible (s : State) : Requester → Bool
  | .pass => !s.passFifo.isEmpty
  | .expansion => !s.queue.isEmpty && (freeTag s).isSome
  | .fill => (fillOffer s).isSome && (freeTag s).isSome
  | .post => (offeredFrom s.poster).isSome && (freeTag s).isSome

/-- The requester an opportunity is granted to (R14). -/
def chosen (s : State) : Option Requester := (ringAfter s.lastGranted).find? (eligible s)

/-! ## The writes -/

/-- The data of an expansion record's write (R13): every pixel's four bytes in the order in which the source's write had
them, since `txnPixel` and `wordBytes` agree (R41, R75; log entry 35). -/
def pixelBytes (ps : List Pixel) : List Byte := ps.flatMap fun p => wordBytes p.value

/-- The strobes of an expansion record's write (R13). -/
def pixelStrobes (ps : List Pixel) : List Bool :=
  ps.flatMap fun p => [p.strobes.getLsbD 0, p.strobes.getLsbD 1, p.strobes.getLsbD 2, p.strobes.getLsbD 3]

/-- The write of an expansion record (R13, R92). -/
def recordTxn (tag : Tag) (r : Record) : Txn := ownTxn tag r.address (pixelBytes r.pixels) (pixelStrobes r.pixels)

/-- The write of a fill piece: its colour once for each pixel, every strobe on (R129). Which byte of a 32-bit colour lies at
the lowest address R129 does not say, and the model puts the lowest one there (DESIGN CHOICE, log entry 35). -/
def fillTxn (tag : Tag) (w : FillWrite) : Txn :=
  ownTxn tag w.address (List.replicate w.count (wordBytes w.colour)).flatten (List.replicate (4 * w.count) true)

/-- A post write: bytes at an offset of the control region, every strobe on (R168, R172). -/
def postTxn (s : State) (tag : Tag) (off : Nat) (bytes : List Byte) : Txn :=
  ownTxn tag (controlAddress s off) bytes (List.replicate bytes.length true)

/-- The kind of the entries of a channel's list (R125). -/
def channelKind : ChannelId → FillKind
  | .zero => .resolve
  | .one => .border

/-! ## The grants -/

/-- PASS is granted: the head of the FIFO leaves, and the transaction that has waited longest for room joins (R10,
R14). -/
def grantPass (s : State) : State :=
  match s.passFifo with
  | [] => s
  | t :: rest => { s with
      passFifo := rest ++ s.passWait.take 1, passWait := s.passWait.drop 1, storeOut := s.storeOut ++ [t] }

/-- EXPANSION is granted: the head record leaves the queue as one write, and the hold list is walked (R92, R93). -/
def grantExpansion (tag : Tag) (s : State) : State :=
  match s.queue with
  | [] => s
  | r :: rest => walk (issueOwn tag (.expansion r.window r.panel) (recordTxn tag r) (setQueue rest s))

/-- A channel's write has been issued: it is outstanding, and after the last write of a row the next row begins
(R129). -/
def fillIssued (c : ChannelId) (s : State) : State :=
  let ch := getChannel c s
  let s1 := setChannel c { ch with outstanding := ch.outstanding + 1, row := ch.row.tail } s
  if ch.row.tail.isEmpty then beginRow c ((headRows s c).1 + 1) s1 else s1

/-- FILL is granted: the ACTIVE channel's next write is issued (R129). -/
def grantFill (tag : Tag) (s : State) : State :=
  match fillOffer s with
  | none => s
  | some (c, w) => fillIssued c (issueOwn tag (.fill c (channelKind c) w.panel) (fillTxn tag w) s)

/-- An event record is issued: it leaves the pending list (R168). -/
def grantEvent (tag : Tag) (s : State) : State :=
  match s.poster.events with
  | [] => s
  | e :: rest =>
    issueOwn tag (.post (slotOffset e.slot)) (postTxn s tag (slotOffset e.slot) (eventBytes e))
      { s with poster := { s.poster with
          events := rest, issued := s.poster.issued ++ [(e.slot, false)], lastSource := .events } }

/-- A posted item is issued with the values held now: its flag clears (R168). -/
def grantItem (tag : Tag) (s : State) : State :=
  match nextItem s.poster.lastItem s.poster.flags with
  | none => s
  | some i =>
    issueOwn tag (.post (itemOffset i)) (postTxn s tag (itemOffset i) (itemBytes s i))
      { s with poster := { s.poster with
          flags := s.poster.flags.erase i, lastItem := some i, lastSource := .items } }

/-- POST is granted: the Poster's offered write is issued (R168). -/
def grantPost (tag : Tag) (s : State) : State :=
  match offeredFrom s.poster with
  | none => s
  | some .events => grantEvent tag s
  | some .items => grantItem tag s

/-- An own-write requester is granted with the lowest FREE tag (R16). -/
def withFreeTag (f : Tag → State → State) (s : State) : State :=
  match freeTag s with
  | none => s
  | some tag => f tag s

/-- A requester is granted (R14). -/
def grant (r : Requester) (s : State) : State :=
  match r with
  | .pass => grantPass s
  | .expansion => withFreeTag grantExpansion s
  | .fill => withFreeTag grantFill s
  | .post => withFreeTag grantPost s

/-- An opportunity of the store port: the first eligible requester in ring order is granted and becomes the last
granted; without one nothing changes (R14). -/
def opportunity (s : State) : State :=
  match chosen s with
  | none => s
  | some r => grant r { s with lastGranted := r }

end Sys2Proof.Machine
end

