-- ==== Sys2Proof/Machine/StorePort.lean ====
section
/-! DEFINITION. The meanings of the store port's events: RESPONSE_RELAY, STORE_RESPONSE, STORE_OPPORTUNITY and
STORE_TIMEOUT. -/

namespace Sys2Proof.Machine

/-- RESPONSE_RELAY (R3). -/
def execResponseRelay (r : Response) (s : State) : Host.Outcome State Fault Refusal :=
  .next (inService (storePortResponse r) s)

/-- STORE_RESPONSE (R17): a response for initiator 15, with its link tag and status. -/
def execStoreResponse (linkTag : Byte) (st : Status) (s : State) : Host.Outcome State Fault Refusal :=
  .next (inService (ownResponse linkTag st) s)

/-- STORE_OPPORTUNITY (R14). -/
def execStoreOpportunity (s : State) : Host.Outcome State Fault Refusal := .next (inService opportunity s)

/-- STORE_TIMEOUT (R18): the event of one tag, which does not arise before its timeout is reached. -/
def execStoreTimeout (tag : Tag) (s : State) : Host.Outcome State Fault Refusal :=
  .next (inService (fun s => if timeoutReached s tag then expireTag tag s else s) s)

end Sys2Proof.Machine
end

