-- ==== Sys2Proof/Machine/Timers.lean ====
section
/-! DEFINITION. The meanings of the part's own timers and of the fill channels' entries: SYNC_LIMIT_EXPIRY,
SWITCH_LIMIT_EXPIRY, CADENCE_TICK, STALE_LIMIT_EXPIRY, FILL_ENTRY_START and FILL_ENTRY_COMPLETE. An event whose own
condition does not hold does not arise: the state stays as it is. -/

namespace Sys2Proof.Machine

/-- The next multiple of 64 µs of wall time (R1, R137). -/
def nextTickTime (t : Word) : Word := BitVec.ofNat 32 ((t.toNat / Config.tickMicros + 1) * Config.tickMicros)

/-- Whether wall time stands at a tick (R137). -/
def atTick (t : Word) : Bool := t.toNat % Config.tickMicros == 0

/-- A tick: wall time reaches its next multiple of 64 µs, and in RUN the records are ticked (R137). -/
def tick (s : State) : State :=
  let s' := { s with wallTime := nextTickTime s.wallTime }
  if s.mode = .run then tickSources s' else s'

/-- Whether the next tick makes a source STALE: in RUN, with its limit reached by the elapsed count that this tick leaves.
A limit is tested at a tick alone, also one that a parameter write has lowered below the elapsed count (R135, R137). -/
def staleDue (s : State) (src : SourceId) : Bool :=
  s.mode == .run && limitReached s.shadow src (ticked s.cadence[src])

/-- The channel that is due to start an entry (R126). -/
def startingChannel (s : State) : Option ChannelId :=
  if canStart .zero s then some .zero else if canStart .one s then some .one else none

/-- The channel whose current entry is painted to completion (R129). -/
def paintedChannel (s : State) : Option ChannelId :=
  if isPainted .zero s then some .zero else if isPainted .one s then some .one else none

/-- The channel that is due starts its head entry (R126). -/
def startDue (s : State) : State :=
  match startingChannel s with
  | none => s
  | some c => startEntry c s

/-- The painted entry ends COMPLETE (R129). -/
def completeDue (s : State) : State :=
  match paintedChannel s with
  | none => s
  | some c => endCurrent c .complete s

/-- SYNC_LIMIT_EXPIRY (R32). -/
def execSyncLimitExpiry (p : PanelId) (s : State) : Host.Outcome State Fault Refusal :=
  .next (inService (fun s => if syncLimitReached s p then becomeUnsynced p 1 s else s) s)

/-- SWITCH_LIMIT_EXPIRY (R113). -/
def execSwitchLimitExpiry (s : State) : Host.Outcome State Fault Refusal :=
  .next (inService (fun s => if switchLimitReached s then expireSwitchLimit s else s) s)

/-- CADENCE_TICK (R137). -/
def execCadenceTick (s : State) : Host.Outcome State Fault Refusal := .next (inService tick s)

/-- STALE_LIMIT_EXPIRY (R135, R137, R141): the tick at which this source reaches its limit. It acts on every record, as
any tick does (log entry 12). -/
def execStaleLimitExpiry (src : SourceId) (s : State) : Host.Outcome State Fault Refusal :=
  .next (inService (fun s => if staleDue s src then tick s else s) s)

/-- FILL_ENTRY_START (R126). -/
def execFillEntryStart (s : State) : Host.Outcome State Fault Refusal := .next (inService startDue s)

/-- FILL_ENTRY_COMPLETE (R129). -/
def execFillEntryComplete (s : State) : Host.Outcome State Fault Refusal := .next (inService completeDue s)

end Sys2Proof.Machine
end

