-- ==== Sys2Proof/Machine/Traffic.lean ====
section
/-! DEFINITION. The meanings of the transactions that arrive at the ingest port, whatever their words: MALFORMED, PASS,
SCANOUT_READ, APERTURE_WRITE and CONTROL_WRITE. The part sorts a transaction itself when it takes it (R4, R5). -/

namespace Sys2Proof.Machine

/-- MALFORMED (R4). -/
def execMalformed (t : Txn) (s : State) : Host.Outcome State Fault Refusal := .next (arrive t s)

/-- PASS (R6). -/
def execPass (t : Txn) (s : State) : Host.Outcome State Fault Refusal := .next (arrive t s)

/-- SCANOUT_READ (R6, R30). -/
def execScanoutRead (t : Txn) (s : State) : Host.Outcome State Fault Refusal := .next (arrive t s)

/-- APERTURE_WRITE (R7). -/
def execApertureWrite (t : Txn) (s : State) : Host.Outcome State Fault Refusal := .next (arrive t s)

/-- CONTROL_WRITE (R8, R152). -/
def execControlWrite (t : Txn) (s : State) : Host.Outcome State Fault Refusal := .next (arrive t s)

end Sys2Proof.Machine
end

