-- ==== Sys2Proof/Machine/Dispatch.lean ====
section
/-! DEFINITION. The effect of each command of the table: one arm per constructor. -/

namespace Sys2Proof.Machine

def exec (i : Instr) (s : State) : Host.Outcome State Fault Refusal :=
  match i with
  | .malformed t => Sys2Proof.Machine.execMalformed t s
  | .pass t => Sys2Proof.Machine.execPass t s
  | .scanoutRead t => Sys2Proof.Machine.execScanoutRead t s
  | .apertureWrite t => Sys2Proof.Machine.execApertureWrite t s
  | .controlWrite t => Sys2Proof.Machine.execControlWrite t s
  | .enableRequest f src g live copy => Sys2Proof.Machine.execEnableRequest f src g live copy s
  | .sourceDisable f src live copy => Sys2Proof.Machine.execSourceDisable f src live copy s
  | .claim f w => Sys2Proof.Machine.execClaim f w s
  | .release f w => Sys2Proof.Machine.execRelease f w s
  | .seize f w => Sys2Proof.Machine.execSeize f w s
  | .commit f sequence number => Sys2Proof.Machine.execCommit f sequence number s
  | .run f sequence => Sys2Proof.Machine.execRun f sequence s
  | .setup f sequence => Sys2Proof.Machine.execSetup f sequence s
  | .wallReset f sequence => Sys2Proof.Machine.execWallReset f sequence s
  | .wrstPulse => Sys2Proof.Machine.execWrstPulse s
  | .cancelFills f sequence => Sys2Proof.Machine.execCancelFills f sequence s
  | .releaseFailover f sequence argument => Sys2Proof.Machine.execReleaseFailover f sequence argument s
  | .unknownCommand f sequence code argument => Sys2Proof.Machine.execUnknownCommand f sequence code argument s
  | .consumerIndexWrite f value => Sys2Proof.Machine.execConsumerIndexWrite f value s
  | .indicatorDefinitionWrite f line mask all invert => Sys2Proof.Machine.execIndicatorDefinitionWrite f line mask all invert s
  | .bucketThresholdWrite f src threshold => Sys2Proof.Machine.execBucketThresholdWrite f src threshold s
  | .interruptEnableWrite f enable => Sys2Proof.Machine.execInterruptEnableWrite f enable s
  | .responseRelay r => Sys2Proof.Machine.execResponseRelay r s
  | .storeResponse linkTag st => Sys2Proof.Machine.execStoreResponse linkTag st s
  | .storeOpportunity => Sys2Proof.Machine.execStoreOpportunity s
  | .storeTimeout tag => Sys2Proof.Machine.execStoreTimeout tag s
  | .syncLimitExpiry p => Sys2Proof.Machine.execSyncLimitExpiry p s
  | .switchLimitExpiry => Sys2Proof.Machine.execSwitchLimitExpiry s
  | .cadenceTick => Sys2Proof.Machine.execCadenceTick s
  | .staleLimitExpiry src => Sys2Proof.Machine.execStaleLimitExpiry src s
  | .fillEntryStart => Sys2Proof.Machine.execFillEntryStart s
  | .fillEntryComplete => Sys2Proof.Machine.execFillEntryComplete s
  | .ponrstAssert => Sys2Proof.Machine.execPonrstAssert s
  | .ponrstRelease base prio => Sys2Proof.Machine.execPonrstRelease base prio s

end Sys2Proof.Machine
end

