-- ==== Sys2Proof/Machine/Idle.lean ====
section
/-! DEFINITION. What the part does of itself when no command waits: the events that are due, and the passing of wall
time (DESIGN CHOICE: log entry 10). -/

namespace Sys2Proof.Machine

/-- The event that is due with no command given, in the model's own order where several are (log entry 10): a fill entry
starts or ends, a store timeout, the switch limit or a sync limit expires. -/
def dueEvent (s : State) : Option Instr :=
  if (startingChannel s).isSome then some .fillEntryStart
  else if (paintedChannel s).isSome then some .fillEntryComplete
  else match (List.finRange 32).find? (timeoutReached s) with
    | some tag => some (.storeTimeout tag)
    | none =>
      if switchLimitReached s then some .switchLimitExpiry
      else ((List.finRange 32).find? (syncLimitReached s)).map .syncLimitExpiry

/-- Wall time counts on by one microsecond (R1). -/
def nextMicro (s : State) : State := { s with wallTime := s.wallTime + 1 }

/-- What happens with no command waiting: nothing while PONRST is asserted, else the due event, else the tick where the
next microsecond is one, else one microsecond passes. -/
def idleCommand (s : State) : Option Instr :=
  if s.ponrst then none
  else (dueEvent s).or (if atTick (s.wallTime + 1) then some .cadenceTick else none)

/-- The state after one idle moment in which no event falls. -/
def idlePasses (s : State) : State := if s.ponrst then s else nextMicro s

end Sys2Proof.Machine
end

