-- ==== Sys2Proof/Machine/Step.lean ====
section
/-! DEFINITION. One step of the block: the command at the front of the queue, or an idle moment. -/

namespace Sys2Proof.Machine

/-- With a command waiting, its effect on the state without it; with none, the part's own next event or the passing of
time. -/
def step (s : State) : Host.Outcome State Fault Refusal :=
  match s.pending with
  | c :: rest => exec c { s with pending := rest }
  | [] => match idleCommand s with
    | some c => exec c s
    | none => .next (idlePasses s)

/-- The state with the command that a word of table bits spells at the front of its queue; unchanged where the word
spells none. -/
def State.withFetchWord (s : State) (nbits w : Nat) : State :=
  match decodeTableWord nbits w with
  | some c => { s with pending := c :: s.pending }
  | none => s

end Sys2Proof.Machine
end

