-- ==== Sys2Proof/Safety.lean ====
section
/-! DEFINITION. What counts as a sound state of the part, in the terms the statements use: the situations in which a
command is taken at once, and the invariants that every step keeps. -/

namespace Sys2Proof.Machine

/-! ## Situations -/

/-- Nothing that waits at the ingest port can be taken now. The port takes what can be taken within the step that makes
it so, hence every state between two steps is settled, but while PONRST is asserted (R9, R164). -/
def Settled (s : State) : Prop := readyInitiators s = []

/-- The part is in service and settled. -/
structure InService (s : State) : Prop where
  running : s.ponrst = false
  settled : Settled s

/-- A well-formed transaction of this class arrives, and its initiator's next transaction can be taken (R5, R9). -/
structure Arrives (s : State) (t : Txn) (c : TrafficClass) : Prop where
  settled : Settled s
  taken : canTake s t.initiator = true
  wellFormed : malformedReason t = none
  cls : classify s t = c

/-- A console writes, and its write is taken when it arrives. -/
structure ConsoleWrites (s : State) (f : Sender) : Prop where
  settled : Settled s
  taken : canTake s f.initiator = true
  console : isConsole s f.initiator = true
  shadow : shadowWf s.shadow = true

/-- The state once the shadow has taken these words from an offset on. -/
def written (s : State) (off : Nat) (ws : List Word) : State :=
  { s with shadow := shadowWriteBytes s.shadow off (bytesOf ws) }

/-- The state once a command with this code has been carried out, giving `u`, and its result recorded (R158). -/
def commandEnds (sequence : Half) (code : Byte) (outcome : CommandOutcome) (detail : Vector Byte 3) (u : State) : State :=
  setResult { sequence := sequence, code := code, outcome := outcome, detail := detail } u

/-- From `s` to `t` these stay: wall time, PONRST and the straps, the ownership table, the Outstanding Store Table, the
requester granted last and what has left at the store port. -/
structure Untouched (s t : State) : Prop where
  wallTime : t.wallTime = s.wallTime
  ponrst : t.ponrst = s.ponrst
  baseStrap : t.baseStrap = s.baseStrap
  prioStrap : t.prioStrap = s.prioStrap
  owners : t.owners = s.owners
  tags : t.tags = s.tags
  exhaustion : t.exhaustion = s.exhaustion
  lastGranted : t.lastGranted = s.lastGranted
  storeOut : t.storeOut = s.storeOut

/-- The records a run makes from a place on under the layouts of `s`, in expansion order; `fuel` bounds their number. -/
def recordsFrom (s : State) (run : Run) : Nat → Position → List Record
  | 0, _ => []
  | fuel + 1, p =>
    match nextRecord s run p with
    | none => []
    | some (r, q) => r :: recordsFrom s run fuel (placeAfter r q)

/-- The records of a whole run, up to one more than a share holds. -/
def runRecords (s : State) (run : Run) : List Record := recordsFrom s run (Config.shareLimit + 1) Position.first

/-- How many places a requester stands after the last granted in the ring: 0 for the next one (R14). -/
def ringDistance (last r : Requester) : Nat := (ringAfter last).idxOf r

/-- The number of grid panels that have not switched to NEXT. -/
def unswitched (s : State) : Nat :=
  (List.finRange 32).countP fun p => isGrid s.geometry p && !s.commit.switched[p]

/-- The event records handed over from `s` to `u`: those after the ones `s` had pending. -/
def newEvents (s u : State) : List EventRecord := u.poster.events.drop s.poster.events.length

/-- A held write's waiting record is in date: its panel's epoch is the one it was made with, and the working geometry has
not been latched since (R85). -/
def inDate (s : State) (h : Held) : Bool := h.waiting.epoch == s.panelEpoch[h.waiting.panel] && !h.latched

/-- The offers of a run from a place on under the layouts of `s`: its records in expansion order, each with its place. -/
def offersFrom (s : State) (run : Run) : Nat → Position → List (Record × Position)
  | 0, _ => []
  | fuel + 1, p =>
    match nextRecord s run p with
    | none => []
    | some (r, q) => (r, q) :: offersFrom s run fuel (placeAfter r q)

/-- The offers of a whole run, up to one more than a share holds: `runRecords` with the place of each record. -/
def runOffers (s : State) (run : Run) : List (Record × Position) :=
  offersFrom s run (Config.shareLimit + 1) Position.first

/-! ## Ordered checks -/

/-- The first check of a table that fails: check `n` fails with this detail, and none before it fails. -/
def FirstFailure {α : Type} (fails : Nat → α → Prop) (n : Nat) (x : α) : Prop :=
  fails n x ∧ ∀ m, m < n → ∀ y, ¬ fails m y

/-- No check of a table fails. -/
def NoFailure {α : Type} (fails : Nat → α → Prop) : Prop := ∀ n x, ¬ fails n x

/-- The byte ranges `lo..hi-1` and `lo'..hi'-1` share a byte. -/
def Overlap (lo hi lo' hi' : Nat) : Prop := ∃ x, lo ≤ x ∧ x < hi ∧ lo' ≤ x ∧ x < hi'

/-- An aperture shares a byte with the working aperture of another ENABLED source (R37, check 6). -/
def MeetsSource (s : State) (src : SourceId) (a : Aperture) (o : SourceId) : Prop :=
  o ≠ src ∧ ∃ b, s.apertures[o] = some b
    ∧ Overlap a.base (a.base + a.frameHeight * a.pitch) b.base (b.base + b.frameHeight * b.pitch)

/-- An aperture shares a byte with a grid panel's frame buffer (R37, check 7; R26, check 11). -/
def MeetsPanel (g : Geometry) (a : Aperture) (p : PanelId) : Prop :=
  isGrid g p = true ∧ Overlap a.base (a.base + a.frameHeight * a.pitch) g.panels[p].base
    (g.panels[p].base + g.panelHeight * g.panels[p].pitch)

/-- The checks of an enable request of a source with this shadowed geometry: the number of the check that fails and its
detail item (R37). -/
inductive EnableFails (s : State) (src : SourceId) (a : Aperture) : Nat → Option Nat → Prop where
  | frameSize : a.frameWidth < 1 ∨ 4096 < a.frameWidth ∨ a.frameHeight < 1 ∨ 4096 < a.frameHeight →
      EnableFails s src a 1 none
  | apertureBase : ¬ 256 ∣ a.base → EnableFails s src a 2 none
  | aperturePitch : ¬ 256 ∣ a.pitch ∨ a.pitch < 256 ∨ 65280 < a.pitch ∨ a.pitch < a.frameWidth * 4 →
      EnableFails s src a 3 none
  | apertureRange : 2 ^ 40 < a.base + a.frameHeight * a.pitch → EnableFails s src a 4 none
  | apertureControl : Overlap a.base (a.base + a.frameHeight * a.pitch) (controlBase s) (controlBase s + 65536) →
      EnableFails s src a 5 none
  | apertureSource (o : SourceId) : MeetsSource s src a o → (∀ q, q < o → ¬ MeetsSource s src a q) →
      EnableFails s src a 6 (some o.val)
  | aperturePanel (p : PanelId) : s.mode = .run → MeetsPanel s.geometry a p →
      (∀ q, q < p → ¬ MeetsPanel s.geometry a q) → EnableFails s src a 7 (some p.val)

/-- A STAGE window of lower id that is not UNUSED holds the layer of this one (R53; R105, check 5). -/
def SameLayer (m : Shadow) (w v : WindowId) : Prop :=
  v.val < w.val ∧ (stageWindow m v).state ≠ .unused ∧ (stageWindow m v).layer = (stageWindow m w).layer

/-- The checks of a STAGE window with this record: the number of the check that fails and the other window (R105). -/
inductive WindowFails (m : Shadow) (w : WindowId) (r : Window) : Nat → Option WindowId → Prop where
  | sourceId : 31 < r.primary ∨ (∃ a, r.alternate = some a ∧ 31 < a) → WindowFails m w r 1 none
  | cropRange : r.cw = 0 ∨ r.ch = 0 ∨ 4096 < r.cx + r.cw ∨ 4096 < r.cy + r.ch → WindowFails m w r 2 none
  | placeRange : r.dw = 0 ∨ r.dh = 0 ∨ 65536 < r.dx + r.dw ∨ 65536 < r.dy + r.dh → WindowFails m w r 3 none
  | scaleRange : 16 * r.dw < r.cw ∨ 8 * r.cw < r.dw ∨ 16 * r.dh < r.ch ∨ 8 * r.ch < r.dh → WindowFails m w r 4 none
  | layerDuplicate (v : WindowId) : SameLayer m w v → (∀ u, u < v → ¬ SameLayer m w u) → WindowFails m w r 5 (some v)
  | alternate : r.mode ≠ .off → r.alternate = none ∨ r.alternate = some r.primary → WindowFails m w r 6 none

/-- STAGE is valid: every window that is not UNUSED passes every check (R105). -/
def StageValid (m : Shadow) : Prop :=
  ∀ w, (stageWindow m w).state ≠ .unused → NoFailure (WindowFails m w (stageWindow m w))

/-- Validation of STAGE ends in this refusal: the lowest window that fails, by its first failing check (R105). -/
def StageRefused (m : Shadow) (r : CommitRefusal) : Prop :=
  (stageWindow m r.window).state ≠ .unused
    ∧ FirstFailure (WindowFails m r.window (stageWindow m r.window)) r.reason r.other
    ∧ ∀ v, v < r.window → (stageWindow m v).state ≠ .unused → NoFailure (WindowFails m v (stageWindow m v))

/-- Checks 1 to 4 of the RUN entry, on the wall (R21, R26). -/
inductive WallFails (g : Geometry) : Nat → Prop where
  | grid : g.columns < 1 ∨ 16 < g.columns ∨ g.rows < 1 ∨ 8 < g.rows ∨ 32 < g.columns * g.rows → WallFails g 1
  | panelSize : g.panelWidth < 64 ∨ 3840 < g.panelWidth ∨ g.panelHeight < 64 ∨ 2160 < g.panelHeight → WallFails g 2
  | bezel : 255 < g.bezelX ∨ 255 < g.bezelY → WallFails g 3
  | wallSize : 65535 < g.columns * (g.panelWidth + g.bezelX) - g.bezelX
      ∨ 65535 < g.rows * (g.panelHeight + g.bezelY) - g.bezelY → WallFails g 4

/-- Checks 5 to 9 of the RUN entry, on one grid panel (R26). -/
inductive PanelFails (s : State) (g : Geometry) (p : PanelId) : Nat → Prop where
  | panelBase : ¬ 256 ∣ g.panels[p].base → PanelFails s g p 5
  | panelPitch : ¬ 256 ∣ g.panels[p].pitch ∨ g.panels[p].pitch < 256 ∨ 65280 < g.panels[p].pitch
      ∨ g.panels[p].pitch < g.panelWidth * 4 → PanelFails s g p 6
  | panelRange : 2 ^ 40 < g.panels[p].base + g.panelHeight * g.panels[p].pitch → PanelFails s g p 7
  | panelScanout : g.panels[p].scanout = 15 → PanelFails s g p 8
  | panelControl : Overlap g.panels[p].base (g.panels[p].base + g.panelHeight * g.panels[p].pitch) (controlBase s)
      (controlBase s + 65536) → PanelFails s g p 9

/-- The frame buffers of a grid panel and of a lower-numbered one share a byte (R26, check 10). -/
def BuffersMeet (g : Geometry) (p q : PanelId) : Prop :=
  isGrid g p = true ∧ isGrid g q = true ∧ q.val < p.val
    ∧ Overlap g.panels[p].base (g.panels[p].base + g.panelHeight * g.panels[p].pitch) g.panels[q].base
      (g.panels[q].base + g.panelHeight * g.panels[q].pitch)

/-- An ENABLED source's working aperture shares a byte with a grid panel's frame buffer (R26, check 11). -/
def ApertureMeets (s : State) (g : Geometry) (src : SourceId) (p : PanelId) : Prop :=
  ∃ a, s.apertures[src] = some a ∧ MeetsPanel g a p

/-- Every grid panel passes checks 5 to 9 (R26). -/
def PanelsPass (s : State) (g : Geometry) : Prop := ∀ p, isGrid g p = true → ∀ n, ¬ PanelFails s g p n

/-- Every check of the RUN entry passes on this geometry (R26). -/
structure RunPasses (s : State) (g : Geometry) : Prop where
  wall : ∀ n, ¬ WallFails g n
  panels : PanelsPass s g
  buffers : ∀ p q, ¬ BuffersMeet g p q
  apertures : ∀ src p, ¬ ApertureMeets s g src p

/-- The first check of the RUN entry that fails on this geometry, with its two detail items (R26). -/
inductive RunRefused (s : State) (g : Geometry) : Nat → Option Nat → Option Nat → Prop where
  | wall (n : Nat) : WallFails g n → (∀ m, m < n → ¬ WallFails g m) → RunRefused s g n none none
  | panel (p : PanelId) (n : Nat) : (∀ m, ¬ WallFails g m) → isGrid g p = true → PanelFails s g p n →
      (∀ m, m < n → ¬ PanelFails s g p m) → (∀ q, q < p → isGrid g q = true → ∀ m, ¬ PanelFails s g q m) →
      RunRefused s g n (some p.val) none
  | buffers (p q : PanelId) : (∀ m, ¬ WallFails g m) → PanelsPass s g → BuffersMeet g p q →
      (∀ q', q' < q → ¬ BuffersMeet g p q') → (∀ p', p' < p → ∀ q', ¬ BuffersMeet g p' q') →
      RunRefused s g 10 (some p.val) (some q.val)
  | apertures (src : SourceId) (p : PanelId) : (∀ m, ¬ WallFails g m) → PanelsPass s g →
      (∀ p' q', ¬ BuffersMeet g p' q') → ApertureMeets s g src p → (∀ q, q < p → ¬ ApertureMeets s g src q) →
      (∀ src', src' < src → ∀ q, ¬ ApertureMeets s g src' q) → RunRefused s g 11 (some src.val) (some p.val)

/-! ## Control words -/

/-- The refusals of a control word at an offset, whose low byte is `code` once it is merged, with their reason: a word is
refused for one of these and for no other (R153, R156, R172). -/
inductive RefusedFor (s : State) (i : Initiator) (off code : Nat) : Nat → Prop where
  | notConsole : isConsole s i = false → RefusedFor s i off code 1
  | partPosted : isConsole s i = true → (0x200 ≤ off ∧ off < 0x400) ∨ (∃ w : WindowId, off = 0x3004 + 8 * w.val)
      ∨ (0x4000 ≤ off ∧ off < 0x5000) ∨ (0x8000 ≤ off ∧ off < 0x8100) → RefusedFor s i off code 2
  | setupOnly : isConsole s i = true → s.mode = .run → off < 0x1C ∨ (0x800 ≤ off ∧ off < 0xA00) →
      RefusedFor s i off code 3
  | notOwner (w : WindowId) (o : Initiator) (pr : Bool) : isConsole s i = true → 0x2000 + 64 * w.val ≤ off →
      off < 0x2000 + 64 * w.val + 64 → s.owners[w] = .owned o pr → o ≠ i → RefusedFor s i off code 4
  | releaseFree (w : WindowId) : isConsole s i = true → off = 0x3000 + 8 * w.val → code = 2 → s.owners[w] = .free →
      RefusedFor s i off code 4
  | releaseOther (w : WindowId) (o : Initiator) (pr : Bool) : isConsole s i = true → off = 0x3000 + 8 * w.val →
      code = 2 → s.owners[w] = .owned o pr → o ≠ i → RefusedFor s i off code 4
  | claimOwned (w : WindowId) (o : Initiator) (pr : Bool) : isConsole s i = true → off = 0x3000 + 8 * w.val →
      code = 1 → s.owners[w] = .owned o pr → o ≠ i → RefusedFor s i off code 5
  | seizeNotPriority (w : WindowId) : isConsole s i = true → off = 0x3000 + 8 * w.val → code = 3 →
      isPriority s i = false → RefusedFor s i off code 6
  | badRequest (w : WindowId) : isConsole s i = true → off = 0x3000 + 8 * w.val → 4 ≤ code → RefusedFor s i off code 7

/-- A write covers its word `k`: at least one of the word's strobes is on (R152). -/
def CoversWord (t : Txn) (k : Nat) : Prop := ∃ j, j < 4 ∧ t.strobes.getD (4 * k + j) false = true

/-- The low byte of a write's word `k` once it is merged: the write's where its strobe is on, else the shadow's (R152). -/
def mergedCode (s : State) (t : Txn) (k : Nat) : Nat :=
  (if t.strobes.getD (4 * k) false = true then t.data.getD (4 * k) 0
    else shadowRead s.shadow (t.address.toNat - controlBase s + 4 * k)).toNat

/-- Word `k` of a control write is refused for this reason (R8, R153). -/
def WordRefused (s : State) (t : Txn) (k reason : Nat) : Prop :=
  RefusedFor s t.initiator (t.address.toNat - controlBase s + 4 * k) (mergedCode s t k) reason

/-- A word whose acceptance has no effect but the shadow's: not the interrupt enable, an indicator's definition, the command
word, the consumer index, a source's enable word or bucket threshold, nor a request other than NONE (R152). -/
def ShadowOnly (off code : Nat) : Prop :=
  off ≠ 0x34 ∧ ¬ (0x40 ≤ off ∧ off < 0x60) ∧ off ≠ 0x100 ∧ off ≠ 0x400
    ∧ (∀ src : SourceId, off ≠ 0x1014 + 64 * src.val ∧ off ≠ 0x1024 + 64 * src.val)
    ∧ ∀ w : WindowId, off = 0x3000 + 8 * w.val → code = 0

/-! ## Frame starts -/

/-- The record `c'` that a frame start leaves of a source's cadence record `c`, with interval I = `c.elapsed`: by the state
it finds (R139), the baseline rule with its closing sentence (R140), and the recovery rule (R142). -/
structure FrameMoves (m : Shadow) (src : SourceId) (c c' : Cadence) : Prop where
  awaiting : c.state = .awaiting → c' = { c with state := .learning, elapsed := 0 }
  learning : c.state = .learning →
    c' = { c with state := .live, baseline := max 1 c.elapsed, bucket := 0, lowCount := 0, elapsed := 0 }
  stale : c.state = .stale → c' = { c with state := .recovering, goodCount := 1, recoveryFrames := 1, elapsed := 0 }
  slow : c.state = .live → c.baseline + upperNoise m src ≤ c.elapsed → c' = { c with lowCount := 0, elapsed := 0 }
  fast : c.state = .live → c.elapsed + lowerNoise m src ≤ c.baseline →
    c' = if lowRun m src ≤ c.lowCount + 1 then
        { c with baseline := max 1 c.elapsed, bucket := 0, lowCount := 0, elapsed := 0 }
      else { c with lowCount := c.lowCount + 1, elapsed := 0 }
  inBand : c.state = .live → c.elapsed < c.baseline + upperNoise m src → c.baseline < c.elapsed + lowerNoise m src →
    ∀ b : Int, b = c.bucket + ((c.elapsed : Int) - (c.baseline : Int)) →
      c' = if (bucketThreshold m src : Int) ≤ b then
          { c with baseline := min 65535 (c.baseline + 1), bucket := 0, lowCount := 0, elapsed := 0 }
        else if b ≤ -(bucketThreshold m src : Int) then
          { c with baseline := max 1 (c.baseline - 1), bucket := 0, lowCount := 0, elapsed := 0 }
        else { c with bucket := b, lowCount := 0, elapsed := 0 }
  bounded : c.state = .live → 1 ≤ c.baseline → c.baseline ≤ 65535 → c.elapsed ≤ 65535 →
    -(bucketThreshold m src : Int) < c.bucket → c.bucket < (bucketThreshold m src : Int) →
    1 ≤ c'.baseline ∧ c'.baseline ≤ 65535 ∧ -(bucketThreshold m src : Int) < c'.bucket
      ∧ c'.bucket < (bucketThreshold m src : Int)
  onTime : c.state = .recovering → c.elapsed ≤ max 1 (c.baseline + staleMargin m src - hysteresis m src) →
    c' = if recoveryCount m src ≤ c.goodCount + 1 then
        { c with
          state := .live, baseline := if c.baseline = 0 then max 1 c.elapsed else c.baseline, bucket := 0, lowCount := 0
          goodCount := 0, elapsed := 0, recoveryFrames := min 65535 (c.recoveryFrames + 1) }
      else { c with
          goodCount := c.goodCount + 1, elapsed := 0, recoveryFrames := min 65535 (c.recoveryFrames + 1) }
  late : c.state = .recovering → max 1 (c.baseline + staleMargin m src - hysteresis m src) < c.elapsed →
    c' = { c with goodCount := 1, elapsed := 0, recoveryFrames := min 65535 (c.recoveryFrames + 1) }

/-- A frame start of this source opens this gate, with the records and counts of `s` (R62). -/
def gateOpens (s : State) (src : SourceId) (w : WindowId) : Bool :=
  s.active.records[w].window.state != .unused && s.active.records[w].effective == src.val
    && s.commit.state != .inFlight && s.fillCount[w] == 0

/-! ## Failover -/

/-- The condition for a failover of a record, with the cadence states of `t` (R145). -/
def failoverHolds (t : State) (r : LayoutRecord) : Bool :=
  r.effective == r.window.primary && cadenceOf t r.window.primary == .stale
    && r.window.alternate.any fun a => cadenceOf t a == .live

/-- The condition for a failback of a record, with the cadence states of `t` (R145). -/
def failbackHolds (t : State) (r : LayoutRecord) : Bool :=
  r.window.alternate == some r.effective && r.window.revert && cadenceOf t r.window.primary == .live

/-- A record that a change of this source's cadence state examines, with this failover mode (R144). -/
def examinedIn (src : SourceId) (mode : FailoverMode) (r : LayoutRecord) : Bool :=
  r.window.state != .unused && (r.window.primary == src.val || r.window.alternate == some src.val)
    && r.window.mode == mode

/-- A record that fails over at a change of this source's state (R144, R145). -/
def failsOver (src : SourceId) (t : State) (r : LayoutRecord) : Bool := examinedIn src .auto r && failoverHolds t r

/-- A record that fails back at a change of this source's state (R144, R145). -/
def failsBack (src : SourceId) (t : State) (r : LayoutRecord) : Bool := examinedIn src .auto r && failbackHolds t r

/-- A record for which a failover is advised at a change of this source's state (R144, R146). -/
def isAdvised (src : SourceId) (t : State) (r : LayoutRecord) : Bool := examinedIn src .notify r && failoverHolds t r

/-- A record after the evaluation: on its alternate, back on its primary, or as it was (R145, R146). -/
def afterEvaluation (src : SourceId) (t : State) (r : LayoutRecord) : LayoutRecord :=
  if failsOver src t r then { r with effective := r.window.alternate.getD r.window.primary }
  else if failsBack src t r then { r with effective := r.window.primary }
  else r

/-- The copies whose record of a window has a property, as R172 codes them: ACTIVE 1, NEXT 2, both 3, neither 0. -/
def copiesWhere (f : LayoutRecord → Bool) (s : State) (w : WindowId) : Nat :=
  (f s.active.records[w]).toNat + 2 * (s.next.any fun l => f l.records[w]).toNat

/-- Whether a window changes its effective source in a copy, by a failover or a failback (R145). -/
def switches (src : SourceId) (t s : State) (w : WindowId) : Bool :=
  copiesWhere (fun r => failsOver src t r || failsBack src t r) s w != 0

/-- From `s` to `u`, the events of this kind are one for each window with a record for which `f` holds: they name the window,
those copies, and the sources as one of those records has them, in ascending window id (R144 to R146, R150). -/
def Reported (s u : State) (kind : Nat) (f : LayoutRecord → Bool) (sources : LayoutRecord → Word) : Prop :=
  ((newEvents s u).filter fun e => e.kind == byteNat kind).Pairwise (fun a b => a.subject.toNat < b.subject.toNat)
  ∧ (∀ w : WindowId, copiesWhere f s w ≠ 0 → ∃ e ∈ newEvents s u,
    e.kind = byteNat kind ∧ e.subject = halfNat w.val ∧ e.detail = byteNat (copiesWhere f s w)
      ∧ ∃ r, (r = s.active.records[w] ∨ ∃ l, s.next = some l ∧ r = l.records[w]) ∧ f r = true ∧ e.extra = sources r)
  ∧ ∀ e ∈ newEvents s u, e.kind = byteNat kind → ∃ w : WindowId, copiesWhere f s w ≠ 0 ∧ e.subject = halfNat w.val

/-- The extra field of an event that names the source left, the source taken and a cause (R172). -/
def sourcesWord (left taken cause : Nat) : Word := wordOf (byteNat left) (byteNat taken) (byteNat cause) 0

/-- From `s` to `u`, failover has been evaluated for a change of this source's cadence state (R144 to R146): the records of
ACTIVE and NEXT after it, the image entries flagged, and, where the kind is enabled and the ring has room for all of them,
FAILOVER 9, FAILOVER_ADVISED 10 and FAILBACK 11 with cause REVERT. -/
structure Evaluated (src : SourceId) (s u : State) : Prop where
  active : ∀ w : WindowId, u.active.records[w] = afterEvaluation src u s.active.records[w]
  next : u.next = s.next.map fun l => { l with records := l.records.map (afterEvaluation src u) }
  epoch : u.active.epoch = s.active.epoch
  flagged : ∀ w : WindowId, u.active.records[w].effective ≠ s.active.records[w].effective →
    PostItem.image w ∈ u.poster.flags
  failovers : eventEnabled s.shadow 9 = true → unread s ≤ 125 → Reported s u 9 (failsOver src u) fun r =>
    sourcesWord r.window.primary (r.window.alternate.getD 255) 0
  advices : eventEnabled s.shadow 10 = true → unread s ≤ 125 → Reported s u 10 (isAdvised src u) fun r =>
    sourcesWord r.window.primary (r.window.alternate.getD 255) 0
  failbacks : eventEnabled s.shadow 11 = true → unread s ≤ 125 → Reported s u 11 (failsBack src u) fun r =>
    sourcesWord (r.window.alternate.getD 255) r.window.primary 1

/-- A STAGE record as a commit takes it, before the evaluation: its effective source is its primary (R59, R65). -/
def stagedRecord (m : Shadow) (w : WindowId) : LayoutRecord :=
  { window := stageWindow m w, effective := (stageWindow m w).primary }

/-- The evaluation at a commit finds a failover for a window: not UNUSED, in AUTO mode, its primary STALE and its alternate
LIVE (R108, R109, R145). -/
def failsOverAtCommit (s : State) (w : WindowId) : Bool :=
  (stageWindow s.shadow w).state != .unused && (stageWindow s.shadow w).mode == .auto
    && failoverHolds s (stagedRecord s.shadow w)

/-- The record a commit leaves in the new layout: its primary in effect, or its alternate after a failover (R58, R108,
R109). -/
def committedRecord (s : State) (w : WindowId) : LayoutRecord :=
  if failsOverAtCommit s w then
    { stagedRecord s.shadow w with effective := (stageWindow s.shadow w).alternate.getD (stageWindow s.shadow w).primary }
  else stagedRecord s.shadow w

/-! ## Fill entries -/

/-- Whether a pixel of a panel lies in a window's placement. -/
def inPlacement (g : Geometry) (p : PanelId) (w : Window) (ox oy : Nat) : Bool :=
  covers w (panelLeft g p + ox) (panelTop g p + oy)

/-- The part of a placement on a panel (R121): the entry it gives holds exactly the placement's pixels on the panel, and it
gives none where there are no such pixels. -/
def CutIsExact (s : State) (p : PanelId) (epoch : Half) (w : WindowId) (win : Window) : Prop :=
  (resolveEntry s p epoch w win = none ↔ win.state = .unused ∨ ∀ ox oy, ox < s.geometry.panelWidth →
    oy < s.geometry.panelHeight → inPlacement s.geometry p win ox oy = false)
  ∧ ∀ e, resolveEntry s p epoch w win = some e →
    e.panel = p ∧ e.epoch = epoch ∧ e.cause = some w ∧ e.rowsDone = 0
    ∧ 1 ≤ e.w ∧ e.x + e.w ≤ s.geometry.panelWidth ∧ 1 ≤ e.h ∧ e.y + e.h ≤ s.geometry.panelHeight
    ∧ ∀ ox oy, ox < s.geometry.panelWidth → oy < s.geometry.panelHeight →
      (inPlacement s.geometry p win ox oy = true ↔ e.x ≤ ox ∧ ox < e.x + e.w ∧ e.y ≤ oy ∧ oy < e.y + e.h)

/-- The entries a switch of a panel to `l` forms: of the changed windows in ascending id, the old placement before the new
one (R121). -/
def formedEntries (s : State) (l : Layout) (p : PanelId) : List ResolveEntry :=
  (List.finRange 64).flatMap fun w =>
    if s.commit.changed[w] then
      [s.active.records[w].window, l.records[w].window].filterMap (resolveEntry s p l.epoch w)
    else []

/-- The number of entries that name a window as their cause. -/
def causedBy (w : WindowId) (es : List ResolveEntry) : Nat := es.countP fun e => e.cause == some w

/-- Whether the entries formed for one switch fit (R122). -/
def Fits (s : State) (es : List ResolveEntry) : Prop :=
  s.exposure.length + es.length ≤ 128 ∧ ∀ w : WindowId, causedBy w es ≠ 0 → s.fillCount[w] + causedBy w es ≤ 64

/-- From `s` to `u`, the Fill Engine has taken the switch of a panel to `l`: the entries formed join the tail and raise their
causes' counts where they fit (R121); else the panel's entries but the current one are removed, and one entry of the whole
panel joins with FILL_FALLBACK, or none, with FILL_LOST, where the list is still full (R122, R123). -/
structure SwitchFills (p : PanelId) (l : Layout) (s u : State) : Prop where
  cut : ∀ (w : WindowId) (win : Window), CutIsExact s p l.epoch w win
  fits : ∀ es, es = formedEntries s l p → Fits s es →
    u.exposure = s.exposure ++ es ∧ ∀ w : WindowId, u.fillCount[w] = s.fillCount[w] + causedBy w es
  fallback : ∀ es current waiting kept removed, es = formedEntries s l p → ¬ Fits s es →
    s.exposure = current ++ waiting → current.length = (if s.channel0.current then min 1 s.exposure.length else 0) →
    removed = waiting.filter (fun e => e.panel == p) → kept = current ++ waiting.filter (fun e => e.panel != p) →
    (∀ w : WindowId, u.fillCount[w] = s.fillCount[w] - causedBy w removed)
    ∧ (kept.length < 128 →
      u.exposure = kept ++ [{
        panel := p, x := 0, y := 0, w := s.geometry.panelWidth, h := s.geometry.panelHeight, epoch := l.epoch
        cause := none, rowsDone := 0 }]
      ∧ (eventEnabled s.shadow 16 = true → unread s ≤ 253 → ∃ e ∈ newEvents s u, e.kind = 16
          ∧ e.subject = halfNat p.val ∧ e.extra = wordNat (es.length + 65536 * removed.length)))
    ∧ (128 ≤ kept.length →
      u.exposure = kept
      ∧ (eventEnabled s.shadow 17 = true → unread s ≤ 253 → ∃ e ∈ newEvents s u, e.kind = 17 ∧ e.detail = 1
          ∧ e.subject = halfNat p.val ∧ e.extra = wordNat es.length))

/-- The BORDER entries due for a stale source in the layouts of `v` (R124): one for each window SHOWN and fed by it and each
grid panel with a pixel of its placement, without the pairs the Marking List holds, by ascending window and panel. -/
structure BordersDue (v : State) (src : SourceId) (es : List BorderEntry) : Prop where
  ordered : es.Pairwise fun a b => a.window < b.window ∨ (a.window = b.window ∧ a.panel < b.panel)
  entries : ∀ e, e ∈ es ↔ e.source = src ∧ e.rowsDone = 0 ∧ e.firstLine = 0 ∧ e.lines = 0
    ∧ isGrid v.geometry e.panel = true
    ∧ (layoutOf v e.panel).records[e.window].window.state = .shown
    ∧ (layoutOf v e.panel).records[e.window].effective = src.val
    ∧ (∃ ox oy, ox < v.geometry.panelWidth ∧ oy < v.geometry.panelHeight
        ∧ inPlacement v.geometry e.panel (layoutOf v e.panel).records[e.window].window ox oy = true)
    ∧ ∀ x ∈ v.marking, ¬ (x.window = e.window ∧ x.panel = e.panel)

/-- From `s` to `u`, the Fill Engine has been told that a source entered STALE: before the failover evaluation or after it,
which R141 leaves open, the entries due join the tail as far as there is room, and FILL_LOST names how many are not made
(R123, R124). -/
def BordersMade (src : SourceId) (s u : State) : Prop :=
  ∃ v es, (v = s ∨ v = { s with active := u.active, next := u.next }) ∧ BordersDue v src es
    ∧ u.marking = s.marking ++ es.take (64 - s.marking.length)
    ∧ (64 < s.marking.length + es.length → s.marking.length ≤ 64 → eventEnabled s.shadow 17 = true → unread s ≤ 125 →
        ∃ e ∈ newEvents s u, e.kind = 17 ∧ e.detail = 2 ∧ e.subject = halfNat src.val
          ∧ e.extra = wordNat (s.marking.length + es.length - 64))

/-- From `s` to `u`, a channel has been told of a fault or a timeout of one of its writes (R130): the outstanding count falls
by 1; the current entry, if it holds one, leaves its list with this last outcome and its cause's count lowered; and the
channel moves on (R125). -/
structure ChannelTold (c : ChannelId) (o : LastOutcome) (s u : State) : Prop where
  outstanding : (getChannel c u).outstanding = (getChannel c s).outstanding - 1
  without : (getChannel c s).current = false → u.exposure = s.exposure ∧ u.marking = s.marking
    ∧ u.fillCount = s.fillCount ∧ getChannel (otherChannel c) u = getChannel (otherChannel c) s
    ∧ getChannel c u = { getChannel c s with outstanding := (getChannel c s).outstanding - 1 }
  abandoned : (getChannel c s).current = true →
    (getChannel c u).current = false ∧ (getChannel c u).row = [] ∧ (getChannel c u).last = o
  resolve : c = .zero → s.channel0.current = true → ∀ e rest, s.exposure = e :: rest → u.exposure = rest
    ∧ u.marking = s.marking
    ∧ ∀ w : WindowId, u.fillCount[w] = if e.cause = some w then s.fillCount[w] - 1 else s.fillCount[w]
  border : c = .one → s.channel1.current = true → u.marking = s.marking.tail ∧ u.exposure = s.exposure
    ∧ u.fillCount = s.fillCount
  swaps : (getChannel c s).current = true → (getChannel (otherChannel c) s).state = .pending →
    getChannel (otherChannel c) u = { getChannel (otherChannel c) s with state := .active }
      ∧ (getChannel c u).state = (if listLength c u = 0 then .idle else .pending)
  goesOn : (getChannel c s).current = true → (getChannel (otherChannel c) s).state ≠ .pending →
    getChannel (otherChannel c) u = getChannel (otherChannel c) s
      ∧ (getChannel c u).state = (if listLength c u = 0 then .idle else (getChannel c s).state)

/-! ## Invariants -/

/-- The Expansion Queue holds at most 256 records, at most 64 of one source (R91). -/
def QueueBounds (s : State) : Prop :=
  s.queue.length ≤ Config.queueCapacity ∧ ∀ src, share s src ≤ Config.shareLimit

/-- The commit and the layouts agree (R54, R56, R103, R110): NEXT exists while a commit is in flight, which is in RUN
alone; panels remaining counts the grid panels that have not switched, and is not 0 in flight; every panel uses ACTIVE or
NEXT with that layout's epoch. The working geometry has 1 to 32 grid panels (R26). -/
structure CommitCoherent (s : State) : Prop where
  next : s.next.isSome = true ↔ s.commit.state = .inFlight
  running : s.commit.state = .inFlight → s.mode = .run
  remaining : s.commit.state = .inFlight → s.commit.remaining = unswitched s ∧ 0 < s.commit.remaining
  panels : ∀ p : PanelId, (s.selection[p] = .active ∧ s.panelEpoch[p] = s.active.epoch)
    ∨ (s.selection[p] = .next ∧ ∃ l, s.next = some l ∧ s.panelEpoch[p] = l.epoch)
  grid : 1 ≤ gridCount s.geometry ∧ gridCount s.geometry ≤ 32

/-- The Fill Engine's lists, channels and counts agree (R63, R119, R120, R125): the lists keep their limits, a window's
pending-fill count is the number of RESOLVE entries that name it, a channel is IDLE exactly when its list is empty,
PENDING only beside an ACTIVE one, at most one is ACTIVE, and only an ACTIVE channel has a current entry. -/
structure FillCoherent (s : State) : Prop where
  exposure : s.exposure.length ≤ Config.exposureCapacity
  marking : s.marking.length ≤ Config.markingCapacity
  counts : ∀ w : WindowId, s.fillCount[w] = s.exposure.countP (fun e => e.cause == some w)
    ∧ s.fillCount[w] ≤ Config.fillCountLimit
  idle : ∀ c, (getChannel c s).state = .idle ↔ listLength c s = 0
  oneActive : ¬ (s.channel0.state = .active ∧ s.channel1.state = .active)
  pending : ∀ c, (getChannel c s).state = .pending → (getChannel (otherChannel c) s).state = .active
  current : ∀ c, (getChannel c s).current = true → (getChannel c s).state = .active

/-- A source is ENABLED exactly while its cadence record is not DISABLED, and no two ENABLED sources share a byte of
their working apertures (R35, R37, R138). -/
structure SourcesCoherent (s : State) : Prop where
  enabled : ∀ src : SourceId, s.apertures[src].isSome = true ↔ s.cadence[src].state ≠ .disabled
  disjoint : ∀ (i j : SourceId) (a b : Aperture), i ≠ j → s.apertures[i] = some a → s.apertures[j] = some b →
    sharesByte a.base (apertureEnd a) b.base (apertureEnd b) = false

/-- The slots of the event ring stand in order: from the producer index on, the issued ones, then the pending ones, and
then the allocation index (R165, R166). -/
def RingOrdered (s : State) : Prop :=
  s.poster.issued.map (·.1) ++ s.poster.events.map (·.slot)
      = (List.range (s.poster.issued.length + s.poster.events.length)).map
          (fun k => s.poster.producer + BitVec.ofNat 8 k)
    ∧ s.poster.allocation = s.poster.producer + BitVec.ofNat 8 (s.poster.issued.length + s.poster.events.length)

/-- IRQ stands at its level (R167). -/
def IrqFollows (s : State) : Prop :=
  s.irq = true ↔ s.ponrst = false ∧ interruptEnabled s.shadow = true ∧ s.poster.producer ≠ consumerIndex s.shadow

/-- Whether the condition of an indicator line holds (R149). -/
def LineHolds (s : State) (m : Fin 4) : Prop :=
  if indicatorAll s.shadow m = true then
    (∃ src, indicatorMask s.shadow m src = true)
      ∧ ∀ src, indicatorMask s.shadow m src = true → s.cadence[src].state = .stale
  else ∃ src : SourceId, indicatorMask s.shadow m src = true ∧ s.cadence[src].state = .stale

/-- The indicator lines are low while PONRST is asserted, and else stand at their conditions, inverted where the invert
flag is set (R149, R164). -/
def IndicatorsFollow (s : State) : Prop :=
  ∀ m : Fin 4, s.indicators[m] = true ↔
    s.ponrst = false ∧ (LineHolds s m ↔ indicatorInvert s.shadow m = false)

/-- The ingest port's order (R9 to R11): each line holds its own initiator's transactions, the FIFO keeps its limit, a
transaction waits for room only while it is full, an initiator has at most one transaction that is held or waits for room,
and nothing that waits could be taken. -/
structure IntakeCoherent (s : State) : Prop where
  lines : ∀ i : Initiator, ∀ t ∈ s.lines[i], t.initiator = i
  fifo : s.passFifo.length ≤ Config.fifoCapacity
  full : s.passWait ≠ [] → s.passFifo.length = Config.fifoCapacity
  one : (s.holds.map (·.txn.initiator) ++ s.passWait.map (·.initiator)).Nodup
  settled : s.ponrst = true ∨ Settled s

end Sys2Proof.Machine
end

