-- ==== Sys2Proof/WellFormed.lean ====
section
/-! DEFINITION. Which terms of `Instr` are commands a sender can give. The machine's meanings do not depend on these
checks: an ill-formed term is one that no sender on the link or at the pins can make. -/

namespace Sys2Proof

/-- A transaction as the link can carry it: a WRITE has one data byte and one strobe for each byte of its length, a
READ has neither (R2). -/
def Txn.wf (t : Txn) : Bool :=
  match t.kind with
  | .write => t.data.length == t.length && t.strobes.length == t.length
  | .read => t.data.isEmpty && t.strobes.isEmpty

/-- The malformed conditions of R4 other than the initiator, as a sender can see them. -/
def Txn.sound (t : Txn) : Bool :=
  4 ≤ t.length && t.length % 4 == 0 && t.length ≤ 256 && t.address.toNat % 4 == 0
    && t.address.toNat / 256 == (t.address.toNat + t.length - 1) / 256

/-- A sender of control words is an initiator of the ingest side, 0 to 14 (R2). -/
def Sender.wf (w : Sender) : Bool := w.initiator.val < 15

/-- The command codes that R159 names. -/
def namedCommand (code : Byte) : Bool := 1 ≤ code.toNat && code.toNat ≤ 6

/-- Whether a command is one that a sender can give. -/
def Instr.wf : Instr → Bool
  | .malformed t => t.wf && !(t.sound && t.initiator.val < 15)
  | .pass t => t.wf && t.sound && t.initiator.val < 15
  | .scanoutRead t => t.wf && t.sound && t.initiator.val < 15 && t.kind == .read
  | .apertureWrite t => t.wf && t.sound && t.initiator.val < 15 && t.kind == .write
  | .controlWrite t => t.wf && t.sound && t.initiator.val < 15 && t.kind == .write
  | .enableRequest w _ _ _ _ => w.wf
  | .sourceDisable w _ _ _ => w.wf
  | .claim w _ => w.wf
  | .release w _ => w.wf
  | .seize w _ => w.wf
  | .commit w _ _ => w.wf
  | .run w _ => w.wf
  | .setup w _ => w.wf
  | .wallReset w _ => w.wf
  | .wrstPulse => true
  | .cancelFills w _ => w.wf
  | .releaseFailover w _ _ => w.wf
  | .unknownCommand w _ code _ => w.wf && !namedCommand code
  | .consumerIndexWrite w _ => w.wf
  | .indicatorDefinitionWrite w _ _ _ _ => w.wf
  | .bucketThresholdWrite w _ _ => w.wf
  | .interruptEnableWrite w _ => w.wf
  | .responseRelay r => r.initiator.val < 15 && (r.status == .done || r.data.isEmpty)
  | .storeResponse _ _ => true
  | .storeOpportunity => true
  | .storeTimeout _ => true
  | .syncLimitExpiry _ => true
  | .switchLimitExpiry => true
  | .cadenceTick => true
  | .staleLimitExpiry _ => true
  | .fillEntryStart => true
  | .fillEntryComplete => true
  | .ponrstAssert => true
  | .ponrstRelease _ _ => true

end Sys2Proof
end

