-- ==== Sys2Proof/Certificates/Slice0/Obligations.lean ====
section
/-! DEFINITION. The statements for the provers. -/

open Sys2Proof Sys2Proof.Machine

/-! ## The block as a machine -/

/-- A step takes the command at the front of the queue and runs it on the state with the queue's rest. -/
def Obligations.StepRunsFrontCommand : Prop :=
  ∀ (c : Instr) (rest : List Instr) (s : State), s.pending = c :: rest → step s = exec c { s with pending := rest }

/-- With no command waiting the part does nothing while PONRST is asserted; else the event that is due takes place, or the
tick where the next microsecond is one, or one microsecond passes. The model's own choice: log entry 10. -/
def Obligations.IdleStepPassesTime : Prop :=
  ∀ s : State, s.pending = [] →
    (s.ponrst = true → step s = .next s)
    ∧ (s.ponrst = false → ∀ c, dueEvent s = some c → step s = exec c s)
    ∧ (s.ponrst = false → dueEvent s = none → atTick (s.wallTime + 1) = true → step s = exec .cadenceTick s)
    ∧ (s.ponrst = false → dueEvent s = none → atTick (s.wallTime + 1) = false →
        step s = .next { s with wallTime := s.wallTime + 1 })

/-- Every command answers a next state and leaves the command queue alone; the straps change only at the release of
PONRST, and wall time only there and at a tick, so not at a wall reset. The rows that bring a tick are CADENCE_TICK and
STALE_LIMIT_EXPIRY, the model's choice (log entries 11 and 12). -/
def Obligations.CommandsKeepQueueStrapsAndTime : Prop :=
  ∀ (c : Instr) (s : State), ∃ t, exec c s = .next t ∧ t.pending = s.pending
    ∧ ((∀ b p, c ≠ .ponrstRelease b p) → t.baseStrap = s.baseStrap ∧ t.prioStrap = s.prioStrap)
    ∧ ((∀ b p, c ≠ .ponrstRelease b p) → c ≠ .cadenceTick → (∀ src, c ≠ .staleLimitExpiry src) →
        t.wallTime = s.wallTime)

/-! ## Reset -/

/-- What the Expansion Queue and the Layout Store hold after a power-on reset, for every setting of the straps. -/
def Obligations.PowerOnQueueAndLayouts : Prop :=
  ∀ (base : Byte) (prio : Initiator) (s : State), s = State.powerOn base prio →
    (s.queue = [] ∧ (∀ src, share s src = 0) ∧ s.holds = [] ∧ (∀ src : SourceId, s.overrun[src] = false)
      ∧ PostItem.occupancy ∈ s.poster.flags ∧ itemBytes s .occupancy = [0, 0, 0, 0])
    ∧ ((∀ w : WindowId, stageWindow s.shadow w = Window.blank ∧ s.active.records[w] = LayoutRecord.blank)
      ∧ s.next = none ∧ s.epochCounter = 0 ∧ s.active.epoch = 0
      ∧ (∀ p : PanelId, s.selection[p] = .active ∧ s.panelEpoch[p] = 0 ∧ PostItem.panel p ∈ s.poster.flags)
      ∧ (∀ w : WindowId, s.gates[w] = .armed ∧ s.fillCount[w] = 0 ∧ PostItem.image w ∈ s.poster.flags))

/-- What the other blocks hold after a power-on reset, for every setting of the straps. That State.reset has both straps at
0 is the model's choice (log entry 8). -/
def Obligations.PowerOnRegisters : Prop :=
  State.reset = State.powerOn 0 0 ∧
  ∀ (base : Byte) (prio : Initiator) (s : State), s = State.powerOn base prio →
    s.wallTime = 0 ∧ s.mode = .setup ∧ s.irq = false ∧ (∀ m : Fin 4, s.indicators[m] = false)
    ∧ (∀ i : Initiator, i ≠ 15 → isConsole s i = true) ∧ (∀ w : WindowId, s.owners[w] = .free)
    ∧ s.result.sequence = 0 ∧ s.result.code = 0 ∧ s.result.outcome = .done
    ∧ s.geometry.columns = 1 ∧ s.geometry.rows = 1 ∧ s.geometry.panelWidth = 1920 ∧ s.geometry.panelHeight = 1080
    ∧ (∀ p : PanelId, s.geometry.panels[p] = { base := 0, pitch := 7680, scanout := 15 } ∧ s.sync[p].state = .unsynced)
    ∧ (∀ src : SourceId, s.apertures[src] = none ∧ s.cadence[src] = Cadence.zeroed .disabled)
    ∧ s.passFifo = [] ∧ s.lastGranted = .post ∧ (∀ t : Tag, s.tags[t] = .free) ∧ s.exhaustion = .armed
    ∧ s.commit.state = .idle
    ∧ s.exposure = [] ∧ s.marking = [] ∧ s.channel0 = Channel.powerOn ∧ s.channel1 = Channel.powerOn
    ∧ s.poster.allocation = 0 ∧ s.poster.producer = 0 ∧ s.poster.events = [] ∧ s.poster.sequence = 0
    ∧ s.poster.overflow = false ∧ s.poster.dropped = 0 ∧ s.poster.flags = allItems ∧ consumerIndex s.shadow = 0
    ∧ storeTimeout s.shadow = 2000 ∧ switchLimit s.shadow = 100 ∧ borderWidth s.shadow = 8

/-- PONRST asserted holds the pins low; its release samples the straps and puts every block at its power-on values, with
nothing left in progress at the ports. That the transactions waiting on the lines stay (log entry 14) and that a release
without an assertion does nothing (log entry 13) are the model's reading, not the spec's words. -/
def Obligations.PonrstAssertAndRelease : Prop :=
  ∀ (s : State) (base : Byte) (prio : Initiator),
    exec .ponrstAssert s
        = .next { s with ponrst := true, irq := false, indicators := Vector.replicate 4 false }
    ∧ (s.ponrst = true → ∃ u, exec (.ponrstRelease base prio) s = .next (serve u)
        ∧ u = { State.powerOn base prio with
            lines := s.lines, ingestOut := s.ingestOut, storeOut := s.storeOut, choices := s.choices
            pending := s.pending }
        ∧ ((∀ i : Initiator, s.lines[i] = []) → serve u = u))
    ∧ (s.ponrst = false → exec (.ponrstRelease base prio) s = .next s)

/-- While PONRST is asserted the part takes nothing and issues nothing, its pins stay low and its wall time stands, until
PONRST is released. That wall time, the queue and the Poster stand is the model's reading (log entry 14). -/
def Obligations.NothingMovesInReset : Prop :=
  ∀ (c : Instr) (s t : State), s.ponrst = true → (∀ b p, c ≠ .ponrstRelease b p) → exec c s = .next t →
    t.ponrst = true ∧ t.ingestOut = s.ingestOut ∧ t.storeOut = s.storeOut ∧ t.passFifo = s.passFifo
    ∧ t.queue = s.queue ∧ t.wallTime = s.wallTime ∧ t.poster = s.poster ∧ (s.irq = false → t.irq = false)
    ∧ (∀ m : Fin 4, s.indicators[m] = false → t.indicators[m] = false)

/-! ## Taking traffic -/

/-- A transaction whose initiator's next one cannot be taken waits at the end of its initiator's line, and nothing else
changes. That it waits there also while PONRST is asserted is the model's reading (log entry 14), and so is that the row which
brings it does not fix its class (log entry 32). -/
def Obligations.ArrivalWaitsInLine : Prop :=
  ∀ (s : State) (t : Txn) (c : Instr), canTake s t.initiator = false →
    c ∈ [Instr.malformed t, .pass t, .scanoutRead t, .apertureWrite t, .controlWrite t] →
    exec c s = .next { s with lines := put s.lines t.initiator (s.lines[t.initiator] ++ [t]) }

/-- A transaction of class PASS enters the pass-through path: the FIFO's tail while there is room and none waits, else
the end of those that wait for room; nothing else changes. -/
def Obligations.PassEntersPath : Prop :=
  ∀ (s : State) (t : Txn), Arrives s t .pass →
    (s.passFifo.length < 16 → s.passWait = [] → exec (.pass t) s = .next { s with passFifo := s.passFifo ++ [t] })
    ∧ (¬ (s.passFifo.length < 16 ∧ s.passWait = []) →
        exec (.pass t) s = .next { s with passWait := s.passWait ++ [t] }
        ∧ canTake { s with passWait := s.passWait ++ [t] } t.initiator = false)

/-- The malformed conditions in their order. A malformed transaction is answered FAULT and reported where its reason is
INITIATOR or it touches the control region or a working aperture; any other enters the pass-through path unreported. That
the bytes of a transaction past the 40-bit space do not wrap to address 0 is the model's reading, log entry 22. -/
def Obligations.MalformedAnsweredOrPassed : Prop :=
  ∀ (s : State) (t : Txn) (reason : Nat),
    (malformedReason t = if t.initiator = 15 then some 1
      else if t.length < 4 ∨ ¬ 4 ∣ t.length then some 2
      else if 256 < t.length then some 3
      else if ¬ 4 ∣ t.address.toNat then some 4
      else if t.address.toNat / 256 ≠ (t.address.toNat + t.length - 1) / 256 then some 5
      else none)
    ∧ (Settled s → canTake s t.initiator = true → malformedReason t = some reason →
      ((reason = 1 ∨ touches t (controlBase s) (controlBase s + 65536) = true
          ∨ ∃ (src : SourceId) (a : Aperture), s.apertures[src] = some a
            ∧ touches t a.base (apertureEnd a) = true) →
        exec (.malformed t) s = .next { s with
          ingestOut := s.ingestOut ++ [responseTo t .fault]
          poster := handedOver s.shadow s.wallTime (evMalformed t.initiator reason t.address) s.poster })
      ∧ (¬ (reason = 1 ∨ touches t (controlBase s) (controlBase s + 65536) = true
          ∨ ∃ (src : SourceId) (a : Aperture), s.apertures[src] = some a
            ∧ touches t a.base (apertureEnd a) = true) →
        exec (.malformed t) s = .next (enterPass t s)))

/-! ## Scanout reads and retrace events -/

/-- A scanout read sets the panel's last read time and moves its sync state, and is passed; unless it makes a retrace
event of a panel that a commit in flight has yet to switch, nothing else changes. -/
def Obligations.ScanoutReadSnooped : Prop :=
  ∀ (s : State) (t : Txn) (p : PanelId) (new : SyncState), Arrives s t (.scanoutRead p) →
    new = (if isLineZero s p t = true then .scanning
      else if s.sync[p].state = .scanning ∧ isLastLineStart s p t = true then .waiting else s.sync[p].state) →
    ¬ (s.commit.state = .inFlight ∧ s.commit.switched[p] = false ∧ s.sync[p].state = .scanning
        ∧ isLineZero s p t = false ∧ isLastLineStart s p t = true) →
    exec (.scanoutRead t) s = .next (enterPass t { s with
      sync := put s.sync p { state := new, lastRead := s.wallTime }
      poster := flaggedIf (s.sync[p].state != new) (.panel p) s.poster })

/-- A retrace event switches its panel exactly where a commit is in flight and the panel has not switched; the switch makes
the RESOLVE entries of the changed windows, or takes the whole-panel fallback, and the last switch completes the commit. In
every other case it has no effect on the commit, the panel or the fill lists. -/
def Obligations.RetraceEventSwitchesPanel : Prop :=
  ∀ (s : State) (t : Txn) (p : PanelId), Arrives s t (.scanoutRead p) → CommitCoherent s →
    s.sync[p].state = .scanning → isLineZero s p t = false → isLastLineStart s p t = true →
    (∀ l, s.commit.state = .inFlight → s.commit.switched[p] = false → s.next = some l →
      ∃ u, exec (.scanoutRead t) s = .next (serve (enterPass t u))
        ∧ u.sync = put s.sync p { state := .waiting, lastRead := s.wallTime }
        ∧ Untouched s u ∧ u.mode = s.mode ∧ u.geometry = s.geometry ∧ u.apertures = s.apertures ∧ u.cadence = s.cadence
        ∧ SwitchFills p l s u ∧ u.marking = s.marking ∧ u.channel1 = s.channel1
        ∧ (1 < s.commit.remaining →
            u.selection[p] = .next ∧ u.panelEpoch[p] = l.epoch ∧ u.commit.switched[p] = true
            ∧ u.commit.remaining = s.commit.remaining - 1 ∧ u.commit.state = .inFlight
            ∧ (∀ r ∈ u.queue, r.panel = p → r.epoch = l.epoch)
            ∧ (∀ q : PanelId, q ≠ p → u.selection[q] = s.selection[q] ∧ u.panelEpoch[q] = s.panelEpoch[q]))
        ∧ (s.commit.remaining = 1 →
            u.commit.state = .done ∧ u.commit.remaining = 0 ∧ u.next = none ∧ u.active = l
            ∧ ∀ q : PanelId, u.selection[q] = .active ∧ u.panelEpoch[q] = l.epoch))
    ∧ (¬ (s.commit.state = .inFlight ∧ s.commit.switched[p] = false) →
      ∃ u, exec (.scanoutRead t) s = .next u ∧ u.commit = s.commit ∧ u.next = s.next ∧ u.active = s.active
        ∧ u.selection = s.selection ∧ u.panelEpoch = s.panelEpoch ∧ u.queue = s.queue ∧ u.exposure = s.exposure
        ∧ u.marking = s.marking ∧ u.fillCount = s.fillCount)

/-! ## Aperture writes -/

/-- An aperture write that is no frame start, whose records all find room, joins them to the queue in expansion order and
is answered DONE in DIVERT, or passed in COPY; nothing else changes. -/
def Obligations.ApertureWriteExpanded : Prop :=
  ∀ (s : State) (t : Txn) (src : SourceId) (a : Aperture) (rs : List Record) (u : State),
    Arrives s t (.apertureWrite src a) → apertureOffset a t ≠ 0 →
    rs = runRecords s (decodeRun s.shadow src a t) →
    share s src + rs.length ≤ 64 → s.queue.length + rs.length ≤ 256 →
    u = { s with
      queue := s.queue ++ rs
      poster := flaggedIf (!rs.isEmpty) .occupancy s.poster } →
    (apertureMode s.shadow src = .divert →
      exec (.apertureWrite t) s = .next { u with ingestOut := u.ingestOut ++ [responseTo t .done] })
    ∧ (apertureMode s.shadow src = .copy → exec (.apertureWrite t) s = .next (enterPass t u))

/-- An aperture write of which a record is refused: the records before it, each within both limits, have joined the queue in
expansion order. Where its source is STALLABLE the write is held with the refused record waiting, so that its initiator's
next transaction cannot be taken; where its source is LIVE the refused record and those after it are discarded, the overrun is
reported once a frame, and it is answered at once. -/
def Obligations.ApertureWriteHeldOrOverrun : Prop :=
  ∀ (s u : State) (t : Txn) (src : SourceId) (a : Aperture) (run : Run) (admitted rest : List (Record × Position))
    (r : Record) (p : Position),
    Arrives s t (.apertureWrite src a) → apertureOffset a t ≠ 0 → run = decodeRun s.shadow src a t →
    runOffers s run = admitted ++ (r, p) :: rest →
    (admitted ≠ [] → share s src + admitted.length ≤ 64 ∧ s.queue.length + admitted.length ≤ 256) →
    (s.queue.length + admitted.length = 256
      ∨ (s.queue.length + admitted.length < 256 ∧ share s src + admitted.length = 64)) →
    u = { s with
      queue := s.queue ++ admitted.map (·.1)
      poster := flaggedIf (!admitted.isEmpty) .occupancy s.poster } →
    (sourceClass s.shadow src = .stallable →
      exec (.apertureWrite t) s = .next { u with
        holds := s.holds ++ [{ txn := t, run := run, waiting := r, place := p, latched := false }] }
      ∧ ∀ v, exec (.apertureWrite t) s = .next v → canTake v t.initiator = false)
    ∧ (sourceClass s.shadow src = .live →
      exec (.apertureWrite t) s = .next (finishAperture t src { u with
        overrun := put s.overrun src true
        poster := if s.overrun[src] = true then u.poster else
          handedOver s.shadow s.wallTime (evLiveOverrun src t.initiator (if u.queue.length = 256 then 1 else 2)
            run.line r.window r.panel) u.poster }))

/-- A write at offset 0 is a frame start. The source's cadence record moves by its state, the baseline rule or the recovery
rule. Where the state stays, no record changes its effective source, and just the gates of the windows the source feeds that
meet the conditions open. Where it moves, failover is evaluated and recovery reaching LIVE is reported; the gates of windows
that switch are armed, unless the frame start, taken after the evaluation, opens them again (R45 leaves the order open), and
the others are as before. The overrun flag of a STALLABLE source is clear after it, and no gate opens while a commit is in
flight. -/
def Obligations.FrameStartTaken : Prop :=
  ∀ (s : State) (t : Txn) (src : SourceId) (a : Aperture),
    Arrives s t (.apertureWrite src a) → apertureOffset a t = 0 →
    ∃ u, exec (.apertureWrite t) s = .next u
      ∧ u.cadence = put s.cadence src (frameRecord s.shadow src s.cadence[src])
      ∧ FrameMoves s.shadow src s.cadence[src] u.cadence[src]
      ∧ (u.cadence[src].state = s.cadence[src].state → u.active = s.active ∧ u.next = s.next)
      ∧ (u.cadence[src].state ≠ s.cadence[src].state → Evaluated src s u
          ∧ (∀ w : WindowId, switches src u s w = false →
              u.gates[w] = if gateOpens s src w then .opened else s.gates[w])
          ∧ (∀ w : WindowId, switches src u s w = true →
              u.gates[w] = .armed ∨ (u.gates[w] = .opened ∧ gateOpens u src w = true)))
      ∧ (s.cadence[src].state = .recovering → u.cadence[src].state = .live → eventEnabled s.shadow 7 = true →
          unread s ≠ 255 → ∃ r more, u.poster.events = s.poster.events ++ r :: more ∧ r.kind = 7
            ∧ r.subject = halfNat src.val
            ∧ r.extra = wordNat (u.cadence[src].baseline + 65536 * u.cadence[src].recoveryFrames))
      ∧ (sourceClass s.shadow src = .stallable → u.overrun = put s.overrun src false)
      ∧ (s.commit.state = .inFlight → ∀ w : WindowId, s.gates[w] = .armed → u.gates[w] = .armed)
      ∧ ((frameRecord s.shadow src s.cadence[src]).state = s.cadence[src].state → ∀ w : WindowId,
          u.gates[w] = if s.active.records[w].window.state ≠ .unused ∧ s.active.records[w].effective = src.val
            ∧ s.commit.state ≠ .inFlight ∧ s.fillCount[w] = 0 then .opened else s.gates[w])
      ∧ Untouched s u ∧ u.mode = s.mode ∧ u.geometry = s.geometry ∧ u.apertures = s.apertures ∧ u.sync = s.sync
      ∧ u.shadow = s.shadow ∧ u.commit = s.commit ∧ u.selection = s.selection ∧ u.fillCount = s.fillCount

/-- Every record that expansion makes is of the run's source and of a SHOWN window it feeds, whose gate is open, in the
layout the record's panel uses; it carries that panel's epoch and 1 to 64 pixels, and with aligned panels it lies in one
256-byte block. -/
def Obligations.RecordsAreSound : Prop :=
  ∀ (s : State) (run : Run) (start p : Position) (r : Record), nextRecord s run start = some (r, p) →
    r.source = run.source ∧ r.epoch = s.panelEpoch[r.panel] ∧ s.gates[r.window] = .opened
    ∧ (layoutOf s r.panel).records[r.window].window.state = .shown
    ∧ (layoutOf s r.panel).records[r.window].effective = run.source.val
    ∧ 1 ≤ r.pixels.length ∧ r.pixels.length ≤ 64
    ∧ (s.geometry.panels[r.panel].base % 256 = 0 → s.geometry.panels[r.panel].pitch % 256 = 0 →
        r.address.toNat % 256 + 4 * r.pixels.length ≤ 256)

/-- Sampling: the first destination column of a span by its formula, the source column that a destination column shows,
and that the two are inverse; the ends of the crop map to the ends of the placement, and the scale limits bound the
products. -/
def Obligations.SamplingSpansAreExact : Prop :=
  ∀ cw dw : Nat, 0 < cw → 0 < dw →
    (∀ u, sampled u cw dw = (2 * u + 1) * cw / (2 * dw))
    ∧ (∀ k, (firstDest k cw dw : Int) = max 0 (-(((cw : Int) - 2 * k * dw) / (2 * cw))))
    ∧ (∀ a0 a1 u, u < dw → (firstDest a0 cw dw ≤ u ∧ u < firstDest (a1 + 1) cw dw
        ↔ a0 ≤ sampled u cw dw ∧ sampled u cw dw ≤ a1))
    ∧ firstDest 0 cw dw = 0 ∧ firstDest cw cw dw = dw
    ∧ (cw ≤ 4096 → scaleFails cw dw = false → dw ≤ 32768 ∧ 2 * cw * dw ≤ 2 ^ 28)

/-! ## Control writes -/

/-- A console's write inside a staging record it may write is shadowed and passed, and has no other effect; of a word
written in part the shadow takes the bytes whose strobes are on. A control write of anyone that covers no word is passed
unchanged, with no event and no other effect. -/
def Obligations.StagingWriteShadowed : Prop :=
  (∀ (s : State) (f : Sender) (w : WindowId) (k : Nat) (ws : List Word) (t : Txn), ConsoleWrites s f →
    (s.owners[w] = .free ∨ ∃ priority, s.owners[w] = .owned f.initiator priority) →
    0 < ws.length → k + ws.length ≤ 16 → t = controlTxn s f (0x2000 + 64 * w.val + 4 * k) (bytesOf ws) →
    exec (.controlWrite t) s = .next (enterPass t (written s (0x2000 + 64 * w.val + 4 * k) ws)))
  ∧ (∀ (s : State) (f : Sender) (w : WindowId) (k : Nat) (v : Word) (b0 b1 b2 b3 : Bool) (off : Nat) (t : Txn)
      (kept : Bool → Nat → Byte), ConsoleWrites s f →
    (s.owners[w] = .free ∨ ∃ priority, s.owners[w] = .owned f.initiator priority) →
    k < 16 → off = 0x2000 + 64 * w.val + 4 * k → (b0 || b1 || b2 || b3) = true →
    t = { controlTxn s f off (bytesOf [v]) with strobes := [b0, b1, b2, b3] } →
    kept = (fun on i => if on then byteOf v i else shadowRead s.shadow (off + i)) →
    exec (.controlWrite t) s
      = .next (enterPass t (written s off [wordOf (kept b0 0) (kept b1 1) (kept b2 2) (kept b3 3)])))
  ∧ ∀ (s : State) (t : Txn), Arrives s t .controlWrite → (∀ b ∈ t.strobes, b = false) →
    exec (.controlWrite t) s = .next (enterPass t s)

/-- A control write whose one word is refused, written whole or in part, is answered FAULT, reported with the first reason
that holds, neither shadowed nor passed: NOT_CONSOLE, PART_POSTED, SETUP_ONLY, NOT_OWNER. Where some words are accepted and
some refused the write is passed with the strobes of the refused words off: here a request of NONE beside the owner word.
The same of any write, of however many words and with any strobes: it is answered FAULT where every covered word is refused;
else it is passed with just the refused words' strobes off, and where no accepted word acts beyond the shadow, the shadow takes
the bytes that are passed and nothing else changes. One ACCESS_REFUSED names the first refused word. -/
def Obligations.ControlWriteRefusedOrTrimmed : Prop :=
  (∀ (s : State) (f : Sender) (off : Nat) (v : Word) (t : Txn) (refused : Nat → State), Settled s →
    canTake s f.initiator = true → f.initiator ≠ 15 → off % 4 = 0 → off < 65536 →
    t = controlTxn s f off (bytesOf [v]) →
    refused = (fun reason => { s with
      ingestOut := s.ingestOut ++ [responseTo t .fault]
      poster := handedOver s.shadow s.wallTime (evAccessRefused f.initiator reason off) s.poster }) →
    (isConsole s f.initiator = false → exec (.controlWrite t) s = .next (refused 1))
    ∧ (isConsole s f.initiator = true →
      (isPartPosted off = true → exec (.controlWrite t) s = .next (refused 2))
      ∧ (s.mode = .run → isSetupOnly off = true → exec (.controlWrite t) s = .next (refused 3))
      ∧ (∀ (w : WindowId) (o : Initiator) (pr : Bool), 0x2000 + 64 * w.val ≤ off → off < 0x2000 + 64 * w.val + 64 →
          s.owners[w] = .owned o pr → o ≠ f.initiator → exec (.controlWrite t) s = .next (refused 4))))
  ∧ (∀ (s : State) (f : Sender) (off : Nat) (v : Word) (b0 b1 b2 b3 : Bool) (t : Txn) (refused : Nat → State),
    Settled s → canTake s f.initiator = true → f.initiator ≠ 15 → off % 4 = 0 → off < 65536 →
    (b0 || b1 || b2 || b3) = true →
    t = { controlTxn s f off (bytesOf [v]) with strobes := [b0, b1, b2, b3] } →
    refused = (fun reason => { s with
      ingestOut := s.ingestOut ++ [responseTo t .fault]
      poster := handedOver s.shadow s.wallTime (evAccessRefused f.initiator reason off) s.poster }) →
    (isConsole s f.initiator = false → exec (.controlWrite t) s = .next (refused 1))
    ∧ (isConsole s f.initiator = true →
      (isPartPosted off = true → exec (.controlWrite t) s = .next (refused 2))
      ∧ (s.mode = .run → isSetupOnly off = true → exec (.controlWrite t) s = .next (refused 3))
      ∧ (∀ (w : WindowId) (o : Initiator) (pr : Bool), 0x2000 + 64 * w.val ≤ off → off < 0x2000 + 64 * w.val + 64 →
          s.owners[w] = .owned o pr → o ≠ f.initiator → exec (.controlWrite t) s = .next (refused 4))))
  ∧ (∀ (s : State) (f : Sender) (w : WindowId) (v : Word) (t : Txn), ConsoleWrites s f →
    t = controlTxn s f (0x3000 + 8 * w.val) (bytesOf [0, v]) →
    exec (.controlWrite t) s = .next (enterPass
      { t with strobes := [true, true, true, true, false, false, false, false] }
      { written s (0x3000 + 8 * w.val) [0] with
        poster := handedOver s.shadow s.wallTime (evAccessRefused f.initiator 2 (0x3004 + 8 * w.val)) s.poster }))
  ∧ ∀ (s : State) (t : Txn) (off k reason : Nat) (p : Poster), Arrives s t .controlWrite →
    off = t.address.toNat - controlBase s → t.data.length = t.length → t.strobes.length = t.length →
    CoversWord t k → WordRefused s t k reason → (∀ j, j < k → CoversWord t j → ∀ n, ¬ WordRefused s t j n) →
    p = handedOver s.shadow s.wallTime (evAccessRefused t.initiator reason (off + 4 * k)) s.poster →
    ((∀ j, CoversWord t j → ∃ n, WordRefused s t j n) →
      exec (.controlWrite t) s = .next { s with ingestOut := s.ingestOut ++ [responseTo t .fault], poster := p })
    ∧ (∀ j, CoversWord t j → (∀ n, ¬ WordRefused s t j n) →
      ∃ (u : State) (on : List Bool), exec (.controlWrite t) s = .next (serve (enterPass { t with strobes := on } u))
        ∧ on.length = t.length
        ∧ (∀ i, on.getD i false = true ↔ t.strobes.getD i false = true ∧ ∀ n, ¬ WordRefused s t (i / 4) n)
        ∧ (shadowWf s.shadow = true →
          (∀ j, CoversWord t j → (∀ n, ¬ WordRefused s t j n) → ShadowOnly (off + 4 * j) (mergedCode s t j)) →
          exec (.controlWrite t) s = .next (enterPass { t with strobes := on } u)
          ∧ ∃ m, u = { s with shadow := m, poster := p } ∧ shadowWf m = true
            ∧ ∀ x, shadowRead m x = if off ≤ x ∧ on.getD (x - off) false = true then t.data.getD (x - off) 0
                else shadowRead s.shadow x))

/-! ## Sources -/

/-- An enable request is checked against the geometry the shadow then has, by the seven checks in their order: by the first
that fails it is reported with its reason and item, and the source stays DISABLED; where none fails, the geometry is latched, the source's word is flagged, the cadence record is AWAITING and zero, and the
windows the source feeds in ACTIVE and, while it exists, in NEXT have their gates armed. For an ENABLED source it has no
effect beyond the shadow. That SOURCE_REFUSED carries the writer's initiator number (log entry 5) and 0xFF for an absent item
(log entry 17) is the model's reading. -/
def Obligations.EnableRequestDecided : Prop :=
  ∀ (s v : State) (f : Sender) (src : SourceId) (g : Option ApertureWords) (live copy : Bool) (t : Txn),
    ConsoleWrites s f → t = enableTxn s f src g true live copy →
    v = (match g with
      | none => written s (enableOffset src) [enableWord true live copy]
      | some g => written s (sourceOffset src) (geometryWords g ++ [enableWord true live copy])) →
    (∀ a, s.apertures[src] = some a → exec (.enableRequest f src g live copy) s = .next (enterPass t v))
    ∧ (∀ reason item, s.apertures[src] = none →
        FirstFailure (EnableFails v src (shadowAperture v.shadow src)) reason item →
      exec (.enableRequest f src g live copy) s = .next (enterPass t { v with
        poster := handedOver v.shadow v.wallTime (evSourceRefused src reason item f.initiator) v.poster }))
    ∧ (s.apertures[src] = none → NoFailure (EnableFails v src (shadowAperture v.shadow src)) →
      ∃ u, exec (.enableRequest f src g live copy) s = .next (enterPass t u)
        ∧ u.apertures = put s.apertures src (some (shadowAperture v.shadow src))
        ∧ u.cadence = put s.cadence src (Cadence.zeroed .awaiting) ∧ u.shadow = v.shadow
        ∧ (∀ w : WindowId, s.active.records[w].window.state ≠ .unused → s.active.records[w].effective = src.val →
            u.gates[w] = .armed)
        ∧ (∀ (l : Layout) (w : WindowId), s.next = some l → l.records[w].window.state ≠ .unused →
            l.records[w].effective = src.val → u.gates[w] = .armed)
        ∧ (∀ w : WindowId, s.gates[w] = .armed → u.gates[w] = .armed)
        ∧ PostItem.source src ∈ u.poster.flags
        ∧ Untouched s u ∧ u.queue = s.queue ∧ u.holds = s.holds ∧ u.commit = s.commit ∧ u.mode = s.mode
        ∧ u.geometry = s.geometry ∧ u.sync = s.sync ∧ u.overrun = s.overrun ∧ u.exposure = s.exposure ∧ u.marking = s.marking ∧ u.fillCount = s.fillCount)

/-- A disable makes an ENABLED source DISABLED with no working aperture, a zeroed cadence record and a clear overrun flag,
and leaves its queued records, its held write and the fill lists; for a DISABLED source nothing but the shadow changes. -/
def Obligations.SourceDisabled : Prop :=
  ∀ (s : State) (f : Sender) (src : SourceId) (live copy : Bool) (t : Txn) (v : State), ConsoleWrites s f →
    t = enableTxn s f src none false live copy → v = written s (enableOffset src) [enableWord false live copy] →
    (s.apertures[src] = none → exec (.sourceDisable f src live copy) s = .next (enterPass t v))
    ∧ (∀ a, s.apertures[src] = some a →
      ∃ u, exec (.sourceDisable f src live copy) s = .next (enterPass t u)
        ∧ u.apertures = put s.apertures src none ∧ u.cadence = put s.cadence src (Cadence.zeroed .disabled)
        ∧ u.overrun = put s.overrun src false ∧ u.shadow = v.shadow
        ∧ PostItem.source src ∈ u.poster.flags
        ∧ u.queue = s.queue ∧ u.holds = s.holds ∧ u.exposure = s.exposure ∧ u.marking = s.marking
        ∧ Untouched s u ∧ u.commit = s.commit ∧ u.mode = s.mode ∧ u.fillCount = s.fillCount ∧ u.geometry = s.geometry
        ∧ u.sync = s.sync)

/-! ## Window ownership -/

/-- The claim requests that are accepted, with the entry each leaves (NONE, CLAIM and RELEASE, and SEIZE by the priority
console), and those that are refused, with the reason: the writer then receives FAULT. Nothing else changes. -/
def Obligations.ClaimRequestsDecided : Prop :=
  ∀ (s : State) (f : Sender) (w : WindowId) (granted : Nat → Owner → State) (refused : Nat → Nat → State),
    ConsoleWrites s f →
    granted = (fun code o => { written s (0x3000 + 8 * w.val) [wordNat code] with
      owners := put s.owners w o, poster := flaggedIf (s.owners[w] != o) (.owner w) s.poster }) →
    refused = (fun code reason => { s with
      ingestOut := s.ingestOut ++ [responseTo (requestTxn s f w code) .fault]
      poster := handedOver s.shadow s.wallTime (evAccessRefused f.initiator reason (0x3000 + 8 * w.val)) s.poster }) →
    exec (.controlWrite (requestTxn s f w 0)) s
        = .next (enterPass (requestTxn s f w 0) (written s (0x3000 + 8 * w.val) [0]))
    ∧ (∀ code, 4 ≤ code → code < 256 → exec (.controlWrite (requestTxn s f w code)) s = .next (refused code 7))
    ∧ (s.owners[w] = .free →
      exec (.claim f w) s = .next (enterPass (requestTxn s f w 1)
        (granted 1 (.owned f.initiator (isPriority s f.initiator))))
      ∧ exec (.release f w) s = .next (refused 2 4))
    ∧ (∀ pr, s.owners[w] = .owned f.initiator pr →
      exec (.claim f w) s = .next (enterPass (requestTxn s f w 1) (granted 1 (.owned f.initiator pr)))
      ∧ exec (.release f w) s = .next (enterPass (requestTxn s f w 2) (granted 2 .free)))
    ∧ (∀ o pr, s.owners[w] = .owned o pr → o ≠ f.initiator →
      exec (.claim f w) s = .next (refused 1 5) ∧ exec (.release f w) s = .next (refused 2 4))
    ∧ (isPriority s f.initiator = false → exec (.seize f w) s = .next (refused 3 6))
    ∧ (isPriority s f.initiator = true →
      (s.owners[w] = .free →
        exec (.seize f w) s = .next (enterPass (requestTxn s f w 3) (granted 3 (.owned f.initiator true))))
      ∧ (∀ pr, s.owners[w] = .owned f.initiator pr →
        exec (.seize f w) s = .next (enterPass (requestTxn s f w 3) (granted 3 (.owned f.initiator pr))))
      ∧ (∀ o pr, s.owners[w] = .owned o pr → o ≠ f.initiator →
        exec (.seize f w) s = .next (enterPass (requestTxn s f w 3)
          (postEvent (evOwnerSeized w o f.initiator) (granted 3 (.owned f.initiator true))))))

/-! ## Commands -/

/-- The commands that have no effect but their result: a code that names no command, a COMMIT while one is in flight, RUN
in RUN and SETUP in SETUP. That code 0 is among those that name no command is the model's reading (log entry 26). -/
def Obligations.CommandsWithoutEffect : Prop :=
  ∀ (s : State) (f : Sender) (q n : Half) (code : Byte), ConsoleWrites s f →
    (namedCommand code = false →
      exec (.unknownCommand f q code n) s = .next (enterPass (argumentTxn s f q code n)
        (commandEnds q code .unknown noDetail (written s 0x100 [commandWord q code, n.setWidth 32]))))
    ∧ (s.mode = .run → s.commit.state = .inFlight →
      exec (.commit f q n) s = .next (enterPass (argumentTxn s f q 1 n)
        (commandEnds q 1 .busy noDetail (written s 0x100 [commandWord q 1, n.setWidth 32]))))
    ∧ (s.mode = .run →
      exec (.run f q) s = .next (enterPass (commandTxn s f q 2)
        (commandEnds q 2 .done noDetail (written s 0x100 [commandWord q 2]))))
    ∧ (s.mode = .setup →
      exec (.setup f q) s = .next (enterPass (commandTxn s f q 3)
        (commandEnds q 3 .done noDetail (written s 0x100 [commandWord q 3]))))

/-- A COMMIT whose validation fails, at the lowest window that is not UNUSED and fails one of the six checks, by the first
that it fails: the commit state is REFUSED with its number, no panel remaining and the refusal,
COMMIT_REFUSED is posted, the result carries the refusal, and STAGE, NEXT, ACTIVE and all else stay. That the event carries
the writer's initiator number is the model's reading (log entry 5). -/
def Obligations.CommitRefused : Prop :=
  ∀ (s v : State) (f : Sender) (q n : Half) (r : CommitRefusal), ConsoleWrites s f →
    ¬ (s.mode = .run ∧ s.commit.state = .inFlight) → StageRefused s.shadow r →
    v = written s 0x100 [commandWord q 1, n.setWidth 32] →
    exec (.commit f q n) s = .next (enterPass (argumentTxn s f q 1 n)
      (commandEnds q 1 .refused
        #v[byteNat r.window.val, byteNat r.reason, byteNat (idOrAbsent (r.other.map (·.val)))]
        (postEvent (evCommitRefused n r f.initiator) (setCommit
          { s.commit with state := .refused, number := n, remaining := 0, refusal := some r } v))))
    ∧ ∀ w, stageWindow v.shadow w = stageWindow s.shadow w

/-- A COMMIT accepted in RUN, STAGE being valid by the six checks: NEXT is STAGE under a new epoch, each window with its
primary in effect, or with its alternate where a failover is due at once; just the gates of the changed windows and of those
that fail over are armed, and the UNSYNCED grid panels are switched at once; the commit is in flight for the others, or done
where there are none. -/
def Obligations.CommitAcceptedInRun : Prop :=
  ∀ (s : State) (f : Sender) (q n : Half), ConsoleWrites s f → CommitCoherent s → s.mode = .run →
    s.commit.state ≠ .inFlight → StageValid s.shadow →
    ∃ u, exec (.commit f q n) s
        = .next (serve (enterPass (argumentTxn s f q 1 n) (commandEnds q 1 .accepted noDetail u)))
      ∧ u.epochCounter = s.epochCounter + 1 ∧ u.commit.number = n
      ∧ Untouched s u ∧ u.mode = .run ∧ u.geometry = s.geometry ∧ u.apertures = s.apertures ∧ u.sync = s.sync
      ∧ u.overrun = s.overrun
      ∧ (∀ w : WindowId, u.gates[w] = if changedWindow s.active.records[w].window (stageWindow s.shadow w) = true
          ∨ failsOverAtCommit s w = true then .armed else s.gates[w])
      ∧ ((∃ p, isGrid s.geometry p = true ∧ s.sync[p].state ≠ .unsynced) →
          u.commit.state = .inFlight
          ∧ u.commit.remaining
              = (List.finRange 32).countP (fun p => isGrid s.geometry p && s.sync[p].state != .unsynced)
          ∧ (∃ l, u.next = some l ∧ l.epoch = s.epochCounter + 1
              ∧ ∀ w : WindowId, l.records[w] = committedRecord s w)
          ∧ u.active = s.active ∧ u.commit.limit = switchLimit s.shadow ∧ u.commit.limitStart = s.wallTime
          ∧ ∀ p, isGrid s.geometry p = true →
              u.selection[p] = if s.sync[p].state = .unsynced then .next else .active)
      ∧ ((∀ p, isGrid s.geometry p = true → s.sync[p].state = .unsynced) →
          u.commit.state = .done ∧ u.next = none ∧ u.active.epoch = s.epochCounter + 1
          ∧ (∀ w : WindowId, u.active.records[w] = committedRecord s w)
          ∧ ∀ p : PanelId, u.selection[p] = .active ∧ u.panelEpoch[p] = s.epochCounter + 1)

/-- A COMMIT in SETUP, STAGE being valid by the six checks, replaces ACTIVE by STAGE under a new epoch at once, on every
panel, each window with its primary in effect, or with its alternate where a failover is due at once; it arms just the gates
of the changed windows and of those that fail over. -/
def Obligations.CommitTakenInSetup : Prop :=
  ∀ (s : State) (f : Sender) (q n : Half), ConsoleWrites s f → s.mode = .setup → StageValid s.shadow →
    ∃ u, exec (.commit f q n) s
        = .next (enterPass (argumentTxn s f q 1 n) (commandEnds q 1 .done noDetail u))
      ∧ u.epochCounter = s.epochCounter + 1 ∧ u.active.epoch = s.epochCounter + 1
      ∧ (∀ w : WindowId, u.active.records[w] = committedRecord s w)
      ∧ (∀ p : PanelId, u.selection[p] = .active ∧ u.panelEpoch[p] = s.epochCounter + 1)
      ∧ u.commit.state = .done ∧ u.commit.number = n ∧ u.commit.remaining = 0
      ∧ (∀ w : WindowId, changedWindow s.active.records[w].window (stageWindow s.shadow w) = true
          ∨ failsOverAtCommit s w = true → u.gates[w] = .armed)
      ∧ (s.next = none → ∀ w : WindowId, changedWindow s.active.records[w].window (stageWindow s.shadow w) = false →
          failsOverAtCommit s w = false → u.gates[w] = s.gates[w])
      ∧ u.queue = s.queue ∧ u.holds = s.holds ∧ u.exposure = s.exposure ∧ u.marking = s.marking
      ∧ u.fillCount = s.fillCount ∧ u.cadence = s.cadence ∧ u.mode = .setup ∧ Untouched s u
      ∧ u.geometry = s.geometry ∧ u.apertures = s.apertures ∧ u.sync = s.sync ∧ u.overrun = s.overrun

/-- A RUN command in SETUP, checked by the eleven checks in their order: the first that fails is in the result with its two
items, and nothing else changes. Where none fails, the shadowed geometry is latched: a panel keeps its sync record where it is
a grid panel before and after with base, pitch, scanout initiator and PH unchanged, or in neither, and is UNSYNCED in every
other case, with PANEL_UNSYNCED and cause CONFIG where it is a grid panel before and after and was not UNSYNCED; the fill lists
are empty and both last outcomes CANCELLED, the held writes note the latch, the mode is RUN and every ENABLED source is
AWAITING. -/
def Obligations.RunCommandDecided : Prop :=
  ∀ (s : State) (f : Sender) (q : Half), ConsoleWrites s f → s.mode = .setup →
    (∀ code a b, RunRefused s (shadowGeometry s.shadow) code a b →
      exec (.run f q) s = .next (enterPass (commandTxn s f q 2)
        (commandEnds q 2 .geometry #v[byteNat code, byteNat (idOrAbsent a), byteNat (idOrAbsent b)]
          (written s 0x100 [commandWord q 2]))))
    ∧ (∀ new : Geometry, CommitCoherent s → FillCoherent s → new = shadowGeometry s.shadow → RunPasses s new →
      ∃ u, exec (.run f q) s
          = .next (enterPass (commandTxn s f q 2) (commandEnds q 2 .done noDetail u))
        ∧ u.mode = .run ∧ u.geometry = new
        ∧ (∀ p : PanelId, u.sync[p] =
            if (isGrid s.geometry p = false ∧ isGrid new p = false)
              ∨ (isGrid s.geometry p = true ∧ isGrid new p = true ∧ new.panels[p] = s.geometry.panels[p]
                ∧ new.panelHeight = s.geometry.panelHeight)
            then s.sync[p] else { s.sync[p] with state := .unsynced })
        ∧ (∀ p : PanelId, u.sync[p].state ≠ s.sync[p].state → PostItem.panel p ∈ u.poster.flags)
        ∧ (∀ p : PanelId, isGrid s.geometry p = true → isGrid new p = true → u.sync[p].state ≠ s.sync[p].state →
            eventEnabled s.shadow 5 = true → unread s ≤ 223 → ∃ e ∈ newEvents s u, e.kind = 5 ∧ e.detail = 2
              ∧ e.subject = halfNat (p.val + 256 * syncCode s.sync[p].state) ∧ e.extra = s.sync[p].lastRead)
        ∧ (∀ e ∈ newEvents s u, e.kind = 5 → ∃ p : PanelId, isGrid s.geometry p = true ∧ isGrid new p = true
            ∧ u.sync[p].state ≠ s.sync[p].state ∧ e.subject = halfNat (p.val + 256 * syncCode s.sync[p].state))
        ∧ u.holds = s.holds.map (fun h => { h with latched := true })
        ∧ u.exposure = [] ∧ u.marking = [] ∧ u.channel0.state = .idle ∧ u.channel1.state = .idle
        ∧ u.channel0.last = .cancelled ∧ u.channel1.last = .cancelled
        ∧ (∀ w : WindowId, u.fillCount[w] = 0)
        ∧ (∀ src : SourceId, u.cadence[src]
            = if s.apertures[src].isSome = true then Cadence.zeroed .awaiting else s.cadence[src])
        ∧ u.queue = s.queue ∧ Untouched s u ∧ u.commit = s.commit ∧ u.apertures = s.apertures
        ∧ u.overrun = s.overrun ∧ u.selection = s.selection ∧ u.panelEpoch = s.panelEpoch)

/-- A SETUP command in RUN: a commit in flight is forced, with no panel late; the mode is SETUP and every ENABLED source is
AWAITING. -/
def Obligations.SetupCommandForcesCommit : Prop :=
  ∀ (s : State) (f : Sender) (q : Half), ConsoleWrites s f → CommitCoherent s → s.mode = .run →
    ∃ u, exec (.setup f q) s = .next (serve (enterPass (commandTxn s f q 3)
        (commandEnds q 3 (if s.commit.state = .inFlight then .forced else .done) noDetail u)))
      ∧ u.mode = .setup ∧ u.next = none
      ∧ (∀ l, s.commit.state = .inFlight → s.next = some l →
          u.commit.state = .forced ∧ u.commit.number = s.commit.number ∧ u.commit.late = s.commit.late
          ∧ u.active.epoch = l.epoch ∧ ∀ p : PanelId, u.selection[p] = .active ∧ u.panelEpoch[p] = l.epoch)
      ∧ (s.commit.state ≠ .inFlight → u.commit = s.commit ∧ u.queue = s.queue ∧ u.selection = s.selection)
      ∧ (∀ src : SourceId, u.cadence[src]
          = if s.apertures[src].isSome = true then Cadence.zeroed .awaiting else s.cadence[src])
      ∧ Untouched s u ∧ u.geometry = s.geometry ∧ u.apertures = s.apertures ∧ u.sync = s.sync ∧ u.overrun = s.overrun

/-- What a wall reset leaves on each block, for a reset made from `s`: the queue, the holds, the fill lists and NEXT are gone,
the tags in use are quarantined, the layouts, STAGE among them, keep the priority console's windows alone and have the others
at their power-on values, ENABLED sources are AWAITING, WALL_RESET is the last event handed over, and the mode, the working
geometry, the panels' sync, the working apertures, the FIFO and wall time stay. WALL_RESET and WRST make it. The initiator
number in the event is the model's reading (log entry 5), and the sequence field after a pulse of WRST a free value (log
entry 4). -/
def Obligations.WallResetClearsTheWall : Prop :=
  ∀ (s : State), SourcesCoherent s →
    (∀ (v : State) (e : Event), v = wallReset e s →
      v.queue = [] ∧ v.holds = [] ∧ (∀ src : SourceId, v.overrun[src] = false)
      ∧ v.ingestOut = s.ingestOut ++ s.holds.map (fun h => responseTo h.txn .done)
      ∧ (∀ t : Tag, v.tags[t] = if s.tags[t] = .free then .free else .quarantined)
      ∧ v.next = none ∧ v.epochCounter = s.epochCounter + 1 ∧ v.active.epoch = s.epochCounter + 1
      ∧ (∀ p : PanelId, v.selection[p] = .active ∧ v.panelEpoch[p] = s.epochCounter + 1)
      ∧ (∀ w : WindowId, v.gates[w] = .armed ∧ v.fillCount[w] = 0)
      ∧ (∀ (w : WindowId) (o : Initiator), s.owners[w] = .owned o true →
          v.owners[w] = .owned o true ∧ v.active.records[w] = s.active.records[w]
          ∧ stageWindow v.shadow w = stageWindow s.shadow w)
      ∧ (∀ w : WindowId, (¬ ∃ o, s.owners[w] = .owned o true) →
          v.owners[w] = .free ∧ v.active.records[w] = LayoutRecord.blank
          ∧ (shadowWf s.shadow = true → stageWindow v.shadow w = Window.blank))
      ∧ v.exposure = [] ∧ v.marking = []
      ∧ (e.kind = 21 → eventEnabled s.shadow 21 = true → unread s ≤ 252 →
          ∃ r, v.poster.events.getLast? = some r ∧ r.kind = 21 ∧ r.detail = byteNat e.detail ∧ r.initiator = e.initiator
            ∧ r.time = s.wallTime ∧ r.extra = e.extra)
      ∧ v.commit.state = (if s.commit.state = .inFlight then .abandoned else s.commit.state)
      ∧ (∀ src : SourceId, v.cadence[src]
          = if s.apertures[src].isSome = true then Cadence.zeroed .awaiting else s.cadence[src])
      ∧ v.mode = s.mode ∧ v.geometry = s.geometry ∧ v.sync = s.sync ∧ v.apertures = s.apertures
      ∧ v.passFifo = s.passFifo ∧ v.lastGranted = s.lastGranted ∧ v.wallTime = s.wallTime)
    ∧ (s.ponrst = false → exec .wrstPulse s = .next (serve (wallReset evWallResetPin s)))
    ∧ (s.ponrst = true → exec .wrstPulse s = .next s)
    ∧ (∀ (f : Sender) (q : Half), ConsoleWrites s f →
      exec (.wallReset f q) s = .next (serve (enterPass (commandTxn s f q 4)
        (commandEnds q 4 (if s.commit.state = .inFlight then .abandoned else .done) noDetail
          (wallReset (evWallResetCommand f.initiator q) (written s 0x100 [commandWord q 4]))))))

/-- The Fill Engine at a wall reset and after a power-on reset. -/
def Obligations.FillEngineResets : Prop :=
  (∀ (s : State) (e : Event) (v : State), v = wallReset e s →
    v.exposure = [] ∧ v.marking = [] ∧ v.channel0.state = .idle ∧ v.channel1.state = .idle
    ∧ v.channel0.outstanding = 0 ∧ v.channel1.outstanding = 0
    ∧ v.channel0.row = [] ∧ v.channel1.row = [] ∧ v.channel0.current = false ∧ v.channel1.current = false
    ∧ v.channel0.last = s.channel0.last ∧ v.channel1.last = s.channel1.last
    ∧ PostItem.fills ∈ v.poster.flags ∧ (∀ w : WindowId, v.fillCount[w] = 0)
    ∧ (∀ t : Tag, v.tags[t] = if s.tags[t] = .free then .free else .quarantined) ∧ v.storeOut = s.storeOut)
  ∧ ∀ (base : Byte) (prio : Initiator) (s : State), s = State.powerOn base prio →
    s.exposure = [] ∧ s.marking = [] ∧ s.channel0.state = .idle ∧ s.channel1.state = .idle
    ∧ s.channel0.outstanding = 0 ∧ s.channel1.outstanding = 0
    ∧ s.channel0.last = .complete ∧ s.channel1.last = .complete ∧ PostItem.fills ∈ s.poster.flags

/-- CANCEL_FILLS empties both lists, brings every pending-fill count to 0 and both channels to IDLE and CANCELLED, keeps
what is outstanding, flags the channels' word and the image entries whose count changed, and touches nothing else. -/
def Obligations.CancelFillsEmptiesLists : Prop :=
  ∀ (s : State) (f : Sender) (q : Half), ConsoleWrites s f → FillCoherent s →
    ∃ flags : List PostItem, exec (.cancelFills f q) s = .next (enterPass (commandTxn s f q 5)
        (commandEnds q 5 .done noDetail { written s 0x100 [commandWord q 5] with
          exposure := [], marking := [], fillCount := Vector.replicate 64 0
          channel0 := { s.channel0 with state := .idle, last := .cancelled, current := false, row := [] }
          channel1 := { s.channel1 with state := .idle, last := .cancelled, current := false, row := [] }
          poster := { s.poster with flags := flags } }))
      ∧ ∀ i, i ∈ flags ↔ i ∈ s.poster.flags ∨ i = .fills ∨ ∃ w : WindowId, i = .image w ∧ s.fillCount[w] ≠ 0

/-- RELEASE_FAILOVER returns the window to its primary in each copy where its effective source is the alternate, arms its
gate, reports FAILBACK with cause RELEASE and flags the image entry where ACTIVE changed; where it is on no alternate it has
no effect; from one who does not own it, and for no window, it ends NOT_OWNER and REFUSED (R159). The detail bytes 1, 0, 0
of that REFUSED (log entry 17) and the writer's initiator number in FAILBACK (log entry 5) are the model's reading. -/
def Obligations.ReleaseFailoverReturns : Prop :=
  ∀ (s v : State) (f : Sender) (q n : Half) (w : WindowId) (onA onN : Bool), ConsoleWrites s f →
    v = written s 0x100 [commandWord q 6, n.setWidth 32] →
    (64 ≤ n.toNat → exec (.releaseFailover f q n) s
      = .next (enterPass (argumentTxn s f q 6 n) (commandEnds q 6 .refused #v[1, 0, 0] v)))
    ∧ (n.toNat = w.val → ownedByOther s f.initiator w = true → exec (.releaseFailover f q n) s
      = .next (enterPass (argumentTxn s f q 6 n) (commandEnds q 6 .notOwner noDetail v)))
    ∧ (n.toNat = w.val → ownedByOther s f.initiator w = false →
      onA = (s.active.records[w].window.state != .unused
        && s.active.records[w].effective != s.active.records[w].window.primary) →
      onN = (match s.next with
        | none => false
        | some l => l.records[w].window.state != .unused && l.records[w].effective != l.records[w].window.primary) →
      (onA = false → onN = false → exec (.releaseFailover f q n) s
        = .next (enterPass (argumentTxn s f q 6 n) (commandEnds q 6 .done noDetail v)))
      ∧ ((onA || onN) = true →
        ∃ u, exec (.releaseFailover f q n) s
            = .next (enterPass (argumentTxn s f q 6 n) (commandEnds q 6 .done noDetail u))
          ∧ u.active.epoch = s.active.epoch
          ∧ u.active.records = (if onA then put s.active.records w
              { s.active.records[w] with effective := s.active.records[w].window.primary } else s.active.records)
          ∧ u.next = (match s.next with
            | none => none
            | some l => if onN then some { l with
                records := put l.records w { l.records[w] with effective := l.records[w].window.primary } } else some l)
          ∧ u.gates = put s.gates w .armed
          ∧ (onA = true → PostItem.image w ∈ u.poster.flags)
          ∧ (eventEnabled s.shadow 11 = true → unread s ≠ 255 →
            ∃ r, u.poster.events = s.poster.events ++ [r] ∧ r.kind = 11
              ∧ r.detail = byteNat (onA.toNat + 2 * onN.toNat) ∧ r.subject = halfNat w.val
              ∧ r.initiator = f.initiator ∧ byteOf r.extra 2 = 2)
          ∧ u.cadence = s.cadence ∧ u.queue = s.queue ∧ u.commit = s.commit ∧ u.owners = s.owners
          ∧ u.mode = s.mode ∧ u.shadow = v.shadow))

/-! ## Parameter writes -/

/-- The consumer index is taken as written, and IRQ follows; while the overflow flag is set and there is room,
RING_OVERFLOW is allocated with the dropped count, which returns to 0, and the flag clears. -/
def Obligations.ConsumerIndexTaken : Prop :=
  ∀ (s : State) (f : Sender) (value : Word) (v : State) (p : Poster), ConsoleWrites s f →
    v = written s 0x400 [value] →
    p = (if s.poster.overflow = true ∧ (s.poster.allocation - value.extractLsb' 0 8).toNat < 255 then
        { flaggedIf true .producer (allocated s.wallTime (evRingOverflow s.poster.dropped) s.poster) with
          overflow := false, dropped := 0 }
      else s.poster) →
    exec (.consumerIndexWrite f value) s = .next (enterPass (consumerTxn s f value) { v with
        poster := p, irq := interruptEnabled s.shadow && s.poster.producer != value.extractLsb' 0 8 })
    ∧ consumerIndex v.shadow = value.extractLsb' 0 8

/-- A write of a line's definition drives that line to its new condition at once; the other lines stand where their
conditions have them, a change of a line flags the lines' word, and nothing else changes. -/
def Obligations.IndicatorDefinitionTaken : Prop :=
  ∀ (s : State) (f : Sender) (line : Fin 4) (mask : Word) (all invert : Bool), ConsoleWrites s f →
    IndicatorsFollow s →
    ∃ (pins : Vector Bool 4) (flags : List PostItem),
      exec (.indicatorDefinitionWrite f line mask all invert) s
        = .next (enterPass (indicatorTxn s f line mask all invert)
            { written s (0x40 + 8 * line.val) [mask, wordNat (all.toNat + 2 * invert.toNat)] with
              indicators := pins, poster := { s.poster with flags := flags } })
      ∧ (pins[line] = true ↔ ((if all = true then (∃ src : SourceId, mask.getLsbD src.val = true)
            ∧ ∀ src : SourceId, mask.getLsbD src.val = true → s.cadence[src].state = .stale
          else ∃ src : SourceId, mask.getLsbD src.val = true ∧ s.cadence[src].state = .stale) ↔ invert = false))
      ∧ (∀ m : Fin 4, m ≠ line → pins[m] = s.indicators[m])
      ∧ ∀ i, i ∈ flags ↔ i ∈ s.poster.flags ∨ (i = .indicators ∧ pins ≠ s.indicators)

/-- A write of a bucket threshold clears a bucket that lies outside a changed threshold; a write of the interrupt enable
changes IRQ at once. Each is shadowed and passed and changes nothing else. -/
def Obligations.ThresholdAndInterruptEnableTaken : Prop :=
  ∀ (s : State) (f : Sender) (src : SourceId) (n : Half) (enable : Bool), ConsoleWrites s f →
    exec (.bucketThresholdWrite f src n) s = .next (enterPass (thresholdTxn s f src n)
      { written s (0x1024 + 64 * src.val) [n.setWidth 32] with
        cadence := if bucketThreshold s.shadow src ≠ max 1 n.toNat
            ∧ ((max 1 n.toNat : Nat) ≤ s.cadence[src].bucket ∨ s.cadence[src].bucket ≤ -((max 1 n.toNat : Nat) : Int))
          then put s.cadence src { s.cadence[src] with bucket := 0 } else s.cadence })
    ∧ exec (.interruptEnableWrite f enable) s = .next (enterPass (interruptTxn s f enable)
      { written s 0x34 [wordNat enable.toNat] with
        irq := enable && s.poster.producer != consumerIndex s.shadow })

/-! ## The store port -/

/-- A response for an initiator 0 to 14 is relayed unchanged. A response for the part's own tag acts by the tag's entry; one
for a FREE entry or no entry is discarded, and one for a QUARANTINED entry only frees it. -/
def Obligations.ResponsesHandled : Prop :=
  ∀ (s : State) (b : Byte) (st : Status) (r : Response), InService s →
    (r.initiator ≠ 15 → exec (.responseRelay r) s = .next { s with ingestOut := s.ingestOut ++ [r] })
    ∧ (32 ≤ b.toNat → exec (.storeResponse b st) s = .next s)
    ∧ (∀ tag : Tag, b.toNat = tag.val →
      (s.tags[tag] = .free → exec (.storeResponse b st) s = .next s)
      ∧ (s.tags[tag] = .quarantined → exec (.storeResponse b st) s = .next { s with
          tags := put s.tags tag .free, exhaustion := .armed, poster := flaggedIf true .quarantined s.poster })
      ∧ (∀ issued w p, s.tags[tag] = .busy issued (.expansion w p) →
        exec (.storeResponse b st) s = .next { s with
          tags := put s.tags tag .free
          poster := if st = .fault then
              handedOver s.shadow s.wallTime (evStoreFault tag (.expansion w p)) s.poster else s.poster }))

/-- The answer to a write of a fill channel frees its tag and lowers the channel's outstanding count; a fault also abandons
the channel's current entry, which leaves its list with its cause's count lowered and last outcome FAULT, after which the
channels take turns, and STORE_FAULT is reported. First for channel 0, then for either channel. -/
def Obligations.FillAnswersTaken : Prop :=
  (∀ (s : State) (b : Byte) (tag : Tag) (issued : Word) (k : FillKind) (p : PanelId), InService s →
    b.toNat = tag.val → s.tags[tag] = .busy issued (.fill .zero k p) →
    (∃ u, exec (.storeResponse b .done) s = .next u ∧ u.tags = put s.tags tag .free
      ∧ u.channel0 = { s.channel0 with outstanding := s.channel0.outstanding - 1 } ∧ u.channel1 = s.channel1
      ∧ u.exposure = s.exposure ∧ u.poster = s.poster)
    ∧ (s.channel0.current = false →
      ∃ u, exec (.storeResponse b .fault) s = .next u ∧ u.tags = put s.tags tag .free
        ∧ u.channel0 = { s.channel0 with outstanding := s.channel0.outstanding - 1 } ∧ u.exposure = s.exposure)
    ∧ (∀ e rest, s.channel0.current = true → s.exposure = e :: rest →
      ∃ u, exec (.storeResponse b .fault) s = .next u ∧ u.tags = put s.tags tag .free
        ∧ u.exposure = rest ∧ u.channel0.current = false ∧ u.channel0.row = [] ∧ u.channel0.last = .fault
        ∧ u.channel0.outstanding = s.channel0.outstanding - 1
        ∧ (∀ w : WindowId, u.fillCount[w] = if e.cause = some w then s.fillCount[w] - 1 else s.fillCount[w])
        ∧ u.marking = s.marking ∧ u.queue = s.queue ∧ u.storeOut = s.storeOut))
  ∧ ∀ (s : State) (b : Byte) (tag : Tag) (issued : Word) (c : ChannelId) (k : FillKind) (p : PanelId), InService s →
    b.toNat = tag.val → s.tags[tag] = .busy issued (.fill c k p) →
    (∃ u, exec (.storeResponse b .done) s = .next u ∧ u.tags = put s.tags tag .free
      ∧ getChannel c u = { getChannel c s with outstanding := (getChannel c s).outstanding - 1 }
      ∧ getChannel (otherChannel c) u = getChannel (otherChannel c) s ∧ u.exposure = s.exposure
      ∧ u.marking = s.marking ∧ u.fillCount = s.fillCount ∧ u.poster = s.poster ∧ u.queue = s.queue
      ∧ u.storeOut = s.storeOut)
    ∧ (∃ u, exec (.storeResponse b .fault) s = .next u ∧ u.tags = put s.tags tag .free ∧ ChannelTold c .fault s u
      ∧ (eventEnabled s.shadow 13 = true → unread s ≠ 255 → ∃ r, u.poster.events = s.poster.events ++ [r] ∧ r.kind = 13
          ∧ r.detail = (match c with | .zero => 1 | .one => 2) ∧ r.subject = halfNat tag.val
          ∧ r.extra = wordOf (byteNat (fillKindCode k)) (byteNat p.val) 0 0)
      ∧ u.queue = s.queue ∧ u.storeOut = s.storeOut)

/-- The end of an event record's write, answered DONE or FAULT, lets the producer index pass its slot once every earlier
slot has ended, and with it every later slot up to the first whose write has not, with no event for a FAULT; IRQ follows.
Where the ring has wrapped onto a slot with a write outstanding, the write of that slot issued first is the one that ends:
the model's choice, log entry 36. -/
def Obligations.PostAnswerMovesProducer : Prop :=
  (∀ (s : State) (b : Byte) (tag : Tag) (issued : Word) (st : Status) (k : Slot) (rest : List (Slot × Bool)),
    InService s → b.toNat = tag.val → s.tags[tag] = .busy issued (.post (0x4000 + 16 * k.toNat)) →
    ((∀ j, rest.head? ≠ some (j, true)) → s.poster.issued = (k, false) :: rest →
      exec (.storeResponse b st) s = .next { s with
        tags := put s.tags tag .free
        poster := flaggedIf (s.poster.producer != k + 1) .producer
          { s.poster with producer := k + 1, issued := rest }
        irq := interruptEnabled s.shadow && k + 1 != consumerIndex s.shadow })
    ∧ (∀ j, j ≠ k → s.poster.issued = (j, false) :: rest →
      ∃ u, exec (.storeResponse b st) s = .next u ∧ u.tags = put s.tags tag .free
        ∧ u.poster.producer = s.poster.producer ∧ u.poster.events = s.poster.events))
  ∧ ∀ (s : State) (b : Byte) (tag : Tag) (issued : Word) (st : Status) (k new : Slot) (ended rest : List (Slot × Bool)),
    InService s → RingOrdered s → b.toNat = tag.val →
    s.tags[tag] = .busy issued (.post (0x4000 + 16 * k.toNat)) →
    s.poster.issued = (k, false) :: ended ++ rest → (∀ j ∈ ended, j.2 = true) → (∀ j, rest.head? ≠ some (j, true)) →
    new = k + 1 + BitVec.ofNat 8 ended.length →
    exec (.storeResponse b st) s = .next { s with
      tags := put s.tags tag .free
      poster := flaggedIf (s.poster.producer != new) .producer { s.poster with producer := new, issued := rest }
      irq := interruptEnabled s.shadow && new != consumerIndex s.shadow }

/-- PASS granted: the FIFO's head is issued unchanged, the transaction that has waited longest for room joins, and PASS is
the last granted. -/
def Obligations.PassGranted : Prop :=
  ∀ (s : State) (t : Txn) (rest : List Txn), InService s → s.passFifo = t :: rest → chosen s = some .pass →
    ∃ u, exec .storeOpportunity s = .next (serve u)
      ∧ u = { s with
          passFifo := rest ++ s.passWait.take 1, passWait := s.passWait.drop 1, storeOut := s.storeOut ++ [t]
          lastGranted := .pass }
      ∧ (s.passWait = [] → serve u = u)

/-- EXPANSION granted: the head record leaves the queue as one own write with the lowest FREE tag, and the room is offered
to the held writes by a walk of the state after the issue. In a walk the oldest held write whose waiting record, still in
date, passes the admission test has it admitted first, also behind older ones that fail it; where every waiting record is in date and
none passes, nothing changes. That a pixel value is held with its first byte lowest is the model's choice (log entry 35). -/
def Obligations.ExpansionGranted : Prop :=
  ∀ (s : State) (r : Record) (rest : List Record) (tag : Tag), InService s → s.queue = r :: rest →
    chosen s = some .expansion → freeTag s = some tag →
    (∀ t : Tag, t < tag → s.tags[t] ≠ .free) ∧ s.tags[tag] = .free
    ∧ (∃ v, exec .storeOpportunity s = .next (serve (walk v))
      ∧ v = { s with
          queue := rest, tags := put s.tags tag (.busy s.wallTime (.expansion r.window r.panel))
          storeOut := s.storeOut ++ [recordTxn tag r], lastGranted := .expansion
          poster := flaggedIf true .occupancy s.poster }
      ∧ (∀ (older newer : List Held) (h : Held), v.holds = older ++ h :: newer →
          (∀ g ∈ older, inDate v g = true ∧ admissible v g.waiting.source = false) → inDate v h = true →
          admissible v h.waiting.source = true → (rest ++ [h.waiting]) <+: (walk v).queue)
      ∧ ((∀ g ∈ v.holds, inDate v g = true ∧ admissible v g.waiting.source = false) → walk v = v))
    ∧ ∃ u, exec .storeOpportunity s = .next (serve u)
      ∧ u.tags = put s.tags tag (.busy s.wallTime (.expansion r.window r.panel))
      ∧ u.storeOut = s.storeOut ++ [{
          kind := .write, initiator := 15, linkTag := byteNat tag.val, address := r.address
          length := 4 * r.pixels.length, data := r.pixels.flatMap (fun px => wordBytes px.value)
          strobes := r.pixels.flatMap (fun px => [px.strobes.getLsbD 0, px.strobes.getLsbD 1, px.strobes.getLsbD 2,
            px.strobes.getLsbD 3]) }]
      ∧ u.lastGranted = .expansion
      ∧ (s.holds = [] → u = { s with
          queue := rest, tags := u.tags, storeOut := u.storeOut, lastGranted := .expansion
          poster := flaggedIf true .occupancy s.poster })

/-- FILL granted to a channel, the one that is ACTIVE: its next write is issued with its colour once for each pixel and is
outstanding; the other writes of the row stay in order. With the last write of a row its rows done rises by 1, and by 1 for
each row without a write that follows; the next row with writes begins, or, where none is left, all rows are done. That the lowest byte of a colour lies at the lowest address is the
model's choice (log entry 35). -/
def Obligations.FillGranted : Prop :=
  (∀ (s : State) (w : FillWrite) (rest : List FillWrite) (tag : Tag), InService s → s.channel0.state = .active →
    s.channel0.row = w :: rest → chosen s = some .fill → freeTag s = some tag →
    ∃ u, exec .storeOpportunity s = .next u
      ∧ u.tags = put s.tags tag (.busy s.wallTime (.fill .zero .resolve w.panel))
      ∧ u.storeOut = s.storeOut ++ [ownTxn tag w.address (List.replicate w.count (wordBytes w.colour)).flatten
          (List.replicate (4 * w.count) true)]
      ∧ u.lastGranted = .fill
      ∧ u.channel0 = { s.channel0 with outstanding := s.channel0.outstanding + 1, row := u.channel0.row }
      ∧ (rest ≠ [] → u.channel0.row = rest ∧ u.exposure = s.exposure)
      ∧ (∀ e es, rest = [] → s.exposure = e :: es → e.rowsDone < e.h →
        ∃ n, e.rowsDone < n ∧ n ≤ e.h ∧ u.exposure = { e with rowsDone := n } :: es
          ∧ (∀ k, e.rowsDone < k → k < n → resolveRow s e k = [])
          ∧ (n < e.h → u.channel0.row = resolveRow s e n ∧ resolveRow s e n ≠ []) ∧ (n = e.h → u.channel0.row = []))
      ∧ u.queue = s.queue ∧ u.marking = s.marking ∧ u.channel1 = s.channel1 ∧ u.poster = s.poster)
  ∧ ∀ (s : State) (w : FillWrite) (rest : List FillWrite) (tag : Tag), InService s → s.channel0.state ≠ .active →
    s.channel1.state = .active → s.channel1.row = w :: rest → chosen s = some .fill → freeTag s = some tag →
    ∃ u, exec .storeOpportunity s = .next u
      ∧ u.tags = put s.tags tag (.busy s.wallTime (.fill .one .border w.panel))
      ∧ u.storeOut = s.storeOut ++ [ownTxn tag w.address (List.replicate w.count (wordBytes w.colour)).flatten
          (List.replicate (4 * w.count) true)]
      ∧ u.lastGranted = .fill
      ∧ u.channel1 = { s.channel1 with outstanding := s.channel1.outstanding + 1, row := u.channel1.row }
      ∧ (rest ≠ [] → u.channel1.row = rest ∧ u.marking = s.marking)
      ∧ (∀ e es, rest = [] → s.marking = e :: es → e.rowsDone < e.lines →
        ∃ n, e.rowsDone < n ∧ n ≤ e.lines ∧ u.marking = { e with rowsDone := n } :: es
          ∧ (∀ k, e.rowsDone < k → k < n → borderRow s e k = [])
          ∧ (n < e.lines → u.channel1.row = borderRow s e n ∧ borderRow s e n ≠ []) ∧ (n = e.lines → u.channel1.row = []))
      ∧ u.queue = s.queue ∧ u.exposure = s.exposure ∧ u.channel0 = s.channel0 ∧ u.poster = s.poster

/-- POST granted: an event record leaves the pending list for its slot of the ring; a posted item is written with the values
held at the grant, and its flag clears. That the source offered from last and the item posted last, which decide what is
offered, are noted at the grant is the model's reading, log entry 21. -/
def Obligations.PostGranted : Prop :=
  ∀ (s : State) (tag : Tag), InService s → chosen s = some .post → freeTag s = some tag →
    (∀ e rest, s.poster.events = e :: rest → (s.poster.flags = [] ∨ s.poster.lastSource = .items) →
      exec .storeOpportunity s = .next { s with
        tags := put s.tags tag (.busy s.wallTime (.post (0x4000 + 16 * e.slot.toNat)))
        storeOut := s.storeOut ++ [postTxn s tag (0x4000 + 16 * e.slot.toNat) (eventBytes e)]
        lastGranted := .post
        poster := { s.poster with
          events := rest, issued := s.poster.issued ++ [(e.slot, false)], lastSource := .events } })
    ∧ (∀ i, s.poster.flags ≠ [] → (s.poster.events = [] ∨ s.poster.lastSource = .events) →
      nextItem s.poster.lastItem s.poster.flags = some i →
      exec .storeOpportunity s = .next { s with
        tags := put s.tags tag (.busy s.wallTime (.post (itemOffset i)))
        storeOut := s.storeOut ++ [postTxn s tag (itemOffset i) (itemBytes s i)]
        lastGranted := .post
        poster := { s.poster with
          flags := s.poster.flags.erase i, lastItem := some i, lastSource := .items } })

/-- At every opportunity an eligible requester is granted, or comes nearer in the ring, in which it stands at most three
places behind; with no eligible requester nothing changes. -/
def Obligations.ArbiterServesWithinFourGrants : Prop :=
  ∀ (s : State) (r : Requester), InService s →
    ringDistance s.lastGranted r ≤ 3
    ∧ (eligible s r = true → ∃ u, exec .storeOpportunity s = .next u
        ∧ (u.lastGranted = r ∨ ringDistance u.lastGranted r < ringDistance s.lastGranted r))
    ∧ ((∀ q, eligible s q = false) → exec .storeOpportunity s = .next s)

/-- The store timeout of a BUSY entry: nothing happens before it is reached; at it the entry is QUARANTINED and the
exhaustion flag is SPENT when no entry is left that is not QUARANTINED. While one is left, STORE_TIMEOUT alone is handed to
the Poster for an expansion write. An event record's POST write is taken as ended: P passes its slot and the ended ones after
it once every earlier slot has ended, and IRQ follows; a posted item's is dropped; no event tells of either. The channel of a fill write is told: its current entry is
abandoned with last outcome TIMEOUT, and STORE_TIMEOUT is reported last. That STORE_TIMEOUT given before its limit does nothing
(log entry 13) and that TAGS_EXHAUSTED comes before the event (log entry 19) are the model's reading. -/
def Obligations.StoreTimeoutQuarantines : Prop :=
  ∀ (s : State) (tag : Tag), InService s →
    ((∀ issued own, s.tags[tag] = .busy issued own →
        (s.wallTime - issued).toNat < storeTimeout s.shadow) → exec (.storeTimeout tag) s = .next s)
    ∧ (∀ issued own, s.tags[tag] = .busy issued own → storeTimeout s.shadow ≤ (s.wallTime - issued).toNat →
      ∃ u, exec (.storeTimeout tag) s = .next u ∧ u.tags = put s.tags tag .quarantined
        ∧ u.exhaustion = (if (∀ t : Tag, t ≠ tag → s.tags[t] = .quarantined) then .spent else s.exhaustion)
        ∧ PostItem.quarantined ∈ u.poster.flags ∧ u.storeOut = s.storeOut ∧ u.queue = s.queue
        ∧ (∀ w p, own = .expansion w p → (∃ t : Tag, t ≠ tag ∧ s.tags[t] ≠ .quarantined) →
            u = { s with
              tags := put s.tags tag .quarantined
              poster := handedOver s.shadow s.wallTime (evStoreTimeout tag own)
                (flaggedIf true .quarantined s.poster) })
        ∧ (∀ off, own = .post off → (∃ t : Tag, t ≠ tag ∧ s.tags[t] ≠ .quarantined) →
            u.poster.events = s.poster.events
            ∧ (off < 0x4000 ∨ 0x5000 ≤ off → u = { s with
              tags := put s.tags tag .quarantined, poster := flaggedIf true .quarantined s.poster }))
        ∧ (∀ (j k : Slot) (rest : List (Slot × Bool)), own = .post (0x4000 + 16 * k.toNat) → j ≠ k →
            s.poster.issued = (j, false) :: rest → u.poster.producer = s.poster.producer
            ∧ u.irq = (interruptEnabled s.shadow && s.poster.producer != consumerIndex s.shadow))
        ∧ (∀ (k new : Slot) (ended rest : List (Slot × Bool)), RingOrdered s → own = .post (0x4000 + 16 * k.toNat) →
            s.poster.issued = (k, false) :: ended ++ rest → (∀ j ∈ ended, j.2 = true) →
            (∀ j, rest.head? ≠ some (j, true)) → new = k + 1 + BitVec.ofNat 8 ended.length →
            u.poster.producer = new ∧ u.poster.issued = rest
            ∧ u.irq = (interruptEnabled s.shadow && new != consumerIndex s.shadow)
            ∧ (new ≠ s.poster.producer → PostItem.producer ∈ u.poster.flags)
            ∧ ((∃ t : Tag, t ≠ tag ∧ s.tags[t] ≠ .quarantined) → u = { s with
              tags := put s.tags tag .quarantined
              poster := flaggedIf (s.poster.producer != new) .producer
                { flaggedIf true .quarantined s.poster with producer := new, issued := rest }
              irq := interruptEnabled s.shadow && new != consumerIndex s.shadow }))
        ∧ (∀ c k p, own = .fill c k p → ChannelTold c .timeout s u
            ∧ (eventEnabled s.shadow 14 = true → unread s ≤ 253 → ∃ r, u.poster.events.getLast? = some r ∧ r.kind = 14
                ∧ r.detail = (match c with | .zero => 1 | .one => 2) ∧ r.subject = halfNat tag.val
                ∧ r.extra = wordOf (byteNat (fillKindCode k)) (byteNat p.val) 0 0)))

/-! ## Timers -/

/-- The sync limit: nothing happens before it is reached. At it the panel is UNSYNCED; with no switch of it due,
PANEL_UNSYNCED is handed to the Poster and nothing else changes; where a commit in flight has yet to switch it, it is switched
and is not late, with the fill entries of a switch. That SYNC_LIMIT_EXPIRY given before its limit does nothing is the model's
reading (log entry 13). -/
def Obligations.SyncLimitUnsyncsPanel : Prop :=
  ∀ (s : State) (p : PanelId), InService s →
    (syncLimitReached s p = false → exec (.syncLimitExpiry p) s = .next s)
    ∧ (isGrid s.geometry p = true → s.sync[p].state ≠ .unsynced → 200000 ≤ (s.wallTime - s.sync[p].lastRead).toNat →
      (¬ (s.commit.state = .inFlight ∧ s.commit.switched[p] = false) →
        exec (.syncLimitExpiry p) s = .next { s with
          sync := put s.sync p { s.sync[p] with state := .unsynced }
          poster := handedOver s.shadow s.wallTime (evPanelUnsynced p 1 s.sync[p].state s.sync[p].lastRead)
            (flaggedIf true (.panel p) s.poster) })
      ∧ (∀ l, CommitCoherent s → s.commit.state = .inFlight → s.commit.switched[p] = false → s.next = some l →
        ∃ u, exec (.syncLimitExpiry p) s = .next (serve u) ∧ u.sync = put s.sync p { s.sync[p] with state := .unsynced }
          ∧ Untouched s u ∧ u.mode = s.mode ∧ u.geometry = s.geometry ∧ u.apertures = s.apertures ∧ u.cadence = s.cadence
          ∧ SwitchFills p l s u ∧ u.panelEpoch[p] = l.epoch ∧ u.commit.late = s.commit.late
          ∧ (1 < s.commit.remaining → u.selection[p] = .next ∧ u.commit.remaining = s.commit.remaining - 1)
          ∧ (s.commit.remaining = 1 → u.commit.state = .done ∧ u.active.epoch = l.epoch ∧ u.next = none)))

/-- The switch limit: nothing before it is reached; at it every grid panel not yet switched is switched late, and the commit
is DONE, with NEXT in force on every panel. That SWITCH_LIMIT_EXPIRY given before its limit does nothing is the model's
reading (log entry 13). -/
def Obligations.SwitchLimitCompletesCommit : Prop :=
  ∀ (s : State), InService s → CommitCoherent s →
    (switchLimitReached s = false → exec .switchLimitExpiry s = .next s)
    ∧ (∀ l, s.commit.state = .inFlight → s.commit.limit * 1000 ≤ (s.wallTime - s.commit.limitStart).toNat →
      s.next = some l →
      ∃ u, exec .switchLimitExpiry s = .next (serve u) ∧ u.commit.state = .done ∧ u.commit.remaining = 0
        ∧ u.commit.late = s.commit.late + s.commit.remaining ∧ u.commit.number = s.commit.number
        ∧ u.next = none ∧ u.active = l
        ∧ Untouched s u ∧ u.mode = s.mode ∧ u.geometry = s.geometry ∧ u.apertures = s.apertures ∧ u.cadence = s.cadence
        ∧ u.sync = s.sync
        ∧ ∀ p : PanelId, u.selection[p] = .active ∧ u.panelEpoch[p] = l.epoch)

/-- A tick moves wall time to its next multiple of 64 µs (the model's choice: log entry 11). In RUN every record that is not
DISABLED counts it, and a source whose limit is reached enters STALE; in SETUP nothing else changes. -/
def Obligations.CadenceTickCounts : Prop :=
  ∀ (s : State), InService s →
    (s.mode = .setup → exec .cadenceTick s = .next { s with wallTime := nextTickTime s.wallTime })
    ∧ (s.mode = .run → ∃ u, exec .cadenceTick s = .next u ∧ u.wallTime = nextTickTime s.wallTime
      ∧ (nextTickTime s.wallTime).toNat % 64 = 0
      ∧ (∀ (src : SourceId) (c : Cadence), c = { s.cadence[src] with
            elapsed := min 65535 (s.cadence[src].elapsed + 1) } →
          u.cadence[src] = if s.cadence[src].state = .disabled then s.cadence[src]
            else if limitReached s.shadow src c = true then { c with state := .stale, goodCount := 0 } else c)
      ∧ ((∀ src : SourceId, s.cadence[src].state = .disabled) → u = { s with wallTime := nextTickTime s.wallTime })
      ∧ u.queue = s.queue ∧ u.tags = s.tags ∧ u.commit = s.commit ∧ u.sync = s.sync ∧ u.apertures = s.apertures
      ∧ u.storeOut = s.storeOut ∧ u.ingestOut = s.ingestOut)

/-- A source enters STALE at the tick at which its elapsed count, as that tick raises it, reaches the limit of its state, and
at no other moment, also where a parameter write has lowered the limit. STALE_LIMIT_EXPIRY is that tick (the model's choice:
log entry 12), and changes nothing where the next tick does not reach the limit (log entry 13). Where it is the only source
to reach its limit, it keeps its baseline, bucket and low count; SOURCE_STALE is posted unless it was RECOVERING; failover is
evaluated, which arms just the gates of the windows that switch; and BORDER entries are made, whose row range stands at 0
until they start (log entry 9). -/
def Obligations.StaleLimitEntersStale : Prop :=
  ∀ (s : State) (src : SourceId) (raised : SourceId → Cadence), InService s →
    raised = (fun q => { s.cadence[q] with elapsed := min 65535 (s.cadence[q].elapsed + 1) }) →
    (∀ c : Cadence, limitReached s.shadow src c = true ↔
      ((c.state = .awaiting ∨ c.state = .learning) ∧ firstFrameLimit s.shadow src ≤ c.elapsed)
      ∨ ((c.state = .live ∨ c.state = .recovering) ∧ min 65535 (c.baseline + staleMargin s.shadow src) ≤ c.elapsed))
    ∧ (¬ (s.mode = .run ∧ limitReached s.shadow src (raised src) = true) → exec (.staleLimitExpiry src) s = .next s)
    ∧ (s.mode = .run → limitReached s.shadow src (raised src) = true →
      exec (.staleLimitExpiry src) s = exec .cadenceTick s
      ∧ ((∀ q, q ≠ src → limitReached s.shadow q (raised q) = false) →
        ∃ u, exec (.staleLimitExpiry src) s = .next u ∧ u.wallTime = nextTickTime s.wallTime
          ∧ u.cadence[src] = { raised src with state := .stale, goodCount := 0 }
          ∧ (∀ q, q ≠ src → u.cadence[q] = if s.cadence[q].state = .disabled then s.cadence[q] else raised q)
          ∧ PostItem.source src ∈ u.poster.flags
          ∧ (s.cadence[src].state ≠ .recovering → eventEnabled s.shadow 6 = true → unread s ≠ 255 →
              ∃ r more, u.poster.events = s.poster.events ++ r :: more ∧ r.kind = 6 ∧ r.subject = halfNat src.val
                ∧ r.detail = byteNat (cadenceCode s.cadence[src].state) ∧ r.time = nextTickTime s.wallTime
                ∧ r.extra = wordNat (s.cadence[src].baseline + 65536 * (raised src).elapsed))
          ∧ (s.cadence[src].state = .recovering → ∀ e ∈ newEvents s u, e.kind ≠ 6)
          ∧ (∀ w : WindowId, u.gates[w] = if switches src u s w then .armed else s.gates[w])
          ∧ Evaluated src s u ∧ BordersMade src s u
          ∧ u.queue = s.queue ∧ u.tags = s.tags ∧ u.commit = s.commit ∧ u.exposure = s.exposure
          ∧ u.fillCount = s.fillCount ∧ u.apertures = s.apertures ∧ u.sync = s.sync ∧ u.storeOut = s.storeOut
          ∧ u.ingestOut = s.ingestOut))

/-! ## Fill entries -/

/-- An ACTIVE channel without outstanding writes starts the first entry of its list that passes its check, with no row done
before the first that has writes; the entries before it are discarded, and a discarded RESOLVE entry lowers its cause's
count. A channel idles where all its entries are discarded. With no channel due, nothing changes, which is the model's
reading (log entry 13). -/
def Obligations.FillEntryStarted : Prop :=
  ∀ (s : State), InService s →
    (startingChannel s = none → exec .fillEntryStart s = .next s)
    ∧ (s.channel0.state = .active → s.channel0.current = false → s.channel0.outstanding = 0 →
      (∀ ds e rest, s.exposure = ds ++ e :: rest → (∀ x ∈ ds, x.epoch ≠ s.panelEpoch[x.panel]) →
        e.epoch = s.panelEpoch[e.panel] →
        ∃ u n, exec .fillEntryStart s = .next u ∧ u.channel0.current = true ∧ u.channel0.state = .active
          ∧ u.exposure = { e with rowsDone := n } :: rest ∧ n ≤ e.h ∧ (u.channel0.row = [] → n = e.h)
          ∧ (∀ k, k < n → resolveRow s e k = []) ∧ (n < e.h → u.channel0.row = resolveRow s e n)
          ∧ (∀ w : WindowId, u.fillCount[w] = s.fillCount[w] - ds.countP (fun x => x.cause == some w))
          ∧ u.channel0.last = s.channel0.last ∧ u.marking = s.marking ∧ u.channel1 = s.channel1
          ∧ u.tags = s.tags ∧ u.poster.events = s.poster.events)
      ∧ (s.exposure ≠ [] → (∀ x ∈ s.exposure, x.epoch ≠ s.panelEpoch[x.panel]) → FillCoherent s →
        ∃ u, exec .fillEntryStart s = .next u ∧ u.exposure = [] ∧ u.channel0.state = .idle
          ∧ u.channel0.last = s.channel0.last ∧ (∀ w : WindowId, u.fillCount[w] = 0)
          ∧ u.channel1.state = (if s.channel1.state = .pending then .active else s.channel1.state)))
    ∧ (∀ ds e rest, s.channel0.state ≠ .active → s.channel1.state = .active → s.channel1.current = false →
      s.channel1.outstanding = 0 → s.marking = ds ++ e :: rest → (∀ x ∈ ds, borderPasses s x = false) →
      borderPasses s e = true →
      ∃ u n, exec .fillEntryStart s = .next u ∧ u.channel1.current = true ∧ u.channel1.state = .active
        ∧ u.marking = { withRowRange s e with rowsDone := n } :: rest ∧ n ≤ (withRowRange s e).lines
        ∧ (u.channel1.row = [] → n = (withRowRange s e).lines)
        ∧ (∀ k, k < n → borderRow s (withRowRange s e) k = [])
        ∧ (n < (withRowRange s e).lines → u.channel1.row = borderRow s (withRowRange s e) n)
        ∧ u.channel1.last = s.channel1.last ∧ u.exposure = s.exposure ∧ u.fillCount = s.fillCount
        ∧ u.channel0 = s.channel0 ∧ u.tags = s.tags ∧ u.poster = s.poster)
    ∧ (s.channel0.state ≠ .active → s.channel1.state = .active → s.channel1.current = false →
      s.channel1.outstanding = 0 → s.marking ≠ [] → (∀ x ∈ s.marking, borderPasses s x = false) →
      ∃ u, exec .fillEntryStart s = .next u ∧ u.marking = [] ∧ u.channel1.state = .idle
        ∧ u.channel1.last = s.channel1.last ∧ u.exposure = s.exposure ∧ u.fillCount = s.fillCount
        ∧ u.channel0 = { s.channel0 with
            state := if s.channel0.state = .pending then .active else s.channel0.state })

/-- A channel's painted entry ends COMPLETE: it leaves its list, the cause of channel 0's has its count lowered by 1, and the
other channel takes its turn where it is PENDING. With no painted entry nothing changes, which is the model's reading (log
entry 13). -/
def Obligations.FillEntryCompleted : Prop :=
  ∀ (s : State), InService s →
    (paintedChannel s = none → exec .fillEntryComplete s = .next s)
    ∧ (∀ e rest, s.channel0.state = .active → s.channel0.current = true → s.channel0.row = [] →
      s.channel0.outstanding = 0 → s.exposure = e :: rest → e.h ≤ e.rowsDone →
      ∃ u, exec .fillEntryComplete s = .next u ∧ u.exposure = rest ∧ u.channel0.current = false
        ∧ u.channel0.last = .complete
        ∧ (∀ w : WindowId, u.fillCount[w] = if e.cause = some w then s.fillCount[w] - 1 else s.fillCount[w])
        ∧ (s.channel1.state = .pending → u.channel1.state = .active
            ∧ u.channel0.state = (if rest = [] then .idle else .pending))
        ∧ (s.channel1.state ≠ .pending → u.channel1 = s.channel1
            ∧ u.channel0.state = (if rest = [] then .idle else .active))
        ∧ u.marking = s.marking ∧ u.tags = s.tags ∧ u.queue = s.queue ∧ u.storeOut = s.storeOut
        ∧ u.poster.events = s.poster.events)
    ∧ (∀ e rest, s.channel0.state ≠ .active → s.channel1.state = .active → s.channel1.current = true →
      s.channel1.row = [] → s.channel1.outstanding = 0 → s.marking = e :: rest → e.lines ≤ e.rowsDone →
      ∃ u, exec .fillEntryComplete s = .next u ∧ u.marking = rest ∧ u.channel1.current = false
        ∧ u.channel1.last = .complete ∧ u.exposure = s.exposure ∧ u.fillCount = s.fillCount
        ∧ (s.channel0.state = .pending → u.channel0 = { s.channel0 with state := .active }
            ∧ u.channel1.state = (if rest = [] then .idle else .pending))
        ∧ (s.channel0.state ≠ .pending → u.channel0 = s.channel0
            ∧ u.channel1.state = (if rest = [] then .idle else .active))
        ∧ u.tags = s.tags ∧ u.queue = s.queue ∧ u.storeOut = s.storeOut ∧ u.poster.events = s.poster.events)

/-! ## Invariants of every step -/

/-- Every step keeps the Expansion Queue within its limits. -/
def Obligations.QueueBoundsKept : Prop :=
  ∀ s t : State, QueueBounds s → step s = .next t → QueueBounds t

/-- Every step keeps the commit and the layouts in agreement. -/
def Obligations.CommitCoherenceKept : Prop :=
  ∀ s t : State, CommitCoherent s → step s = .next t → CommitCoherent t

/-- Every step keeps the Fill Engine's lists, channels and counts in agreement. -/
def Obligations.FillCoherenceKept : Prop :=
  ∀ s t : State, FillCoherent s → step s = .next t → FillCoherent t

/-- Every step keeps the source states and cadence states in agreement and the working apertures apart. -/
def Obligations.SourcesCoherenceKept : Prop :=
  ∀ s t : State, SourcesCoherent s → step s = .next t → SourcesCoherent t

/-- Every step keeps the slots of the event ring in order. -/
def Obligations.RingOrderKept : Prop :=
  ∀ s t : State, RingOrdered s → step s = .next t → RingOrdered t

/-- IRQ is high exactly while PONRST is released, the interrupt enable is set and the producer index differs from the
consumer index: after a power-on reset, and by every step. -/
def Obligations.IrqFollowsProducer : Prop :=
  (∀ (base : Byte) (prio : Initiator), IrqFollows (State.powerOn base prio))
  ∧ ∀ s t : State, IrqFollows s → step s = .next t → IrqFollows t

/-- Every line stands at its condition, inverted where its invert flag is set: all are low after a power-on reset, every step
keeps it so, and a step that changes a line while the part is in service SETS the indicators' posting flag. -/
def Obligations.IndicatorsFollowConditions : Prop :=
  (∀ (base : Byte) (prio : Initiator), IndicatorsFollow (State.powerOn base prio)
    ∧ ∀ m : Fin 4, (State.powerOn base prio).indicators[m] = false)
  ∧ ∀ s t : State, step s = .next t → (IndicatorsFollow s → IndicatorsFollow t)
    ∧ (t.indicators ≠ s.indicators → t.ponrst = false → PostItem.indicators ∈ t.poster.flags)

/-- Every step keeps the shadow's canonical form. -/
def Obligations.ShadowFormKept : Prop :=
  ∀ s t : State, shadowWf s.shadow = true → step s = .next t → shadowWf t.shadow = true

/-- Every step keeps the ingest port's order. -/
def Obligations.IntakeCoherenceKept : Prop :=
  ∀ s t : State, IntakeCoherent s → step s = .next t → IntakeCoherent t

/-- The invariants hold right after a power-on reset, for every setting of the straps. -/
def Obligations.InvariantsHoldAtReset : Prop :=
  ∀ (base : Byte) (prio : Initiator) (s : State), s = State.powerOn base prio →
    QueueBounds s ∧ CommitCoherent s ∧ FillCoherent s ∧ SourcesCoherent s ∧ RingOrdered s
    ∧ shadowWf s.shadow = true ∧ IntakeCoherent s
end

