-- ==== Sys2Proof/Laws/Checks.lean ====
section
/-! SUPPORT. What each ordered check answers, by its table: the enable request (R37), validation (R105), the RUN entry
(R26) and the control words (R153); and the offers of a run. -/

namespace Sys2Proof.Machine

/-! ## Lowest elements -/

/-- The lowest element of `finRange` with a property. -/
theorem find?_finRange_eq_some {n : Nat} {f : Fin n → Bool} {i : Fin n} :
    (List.finRange n).find? f = some i ↔ f i = true ∧ ∀ j, j < i → f j = false := by
  constructor
  · intro h
    obtain ⟨hi, as, bs, hl, hn⟩ := List.find?_eq_some_iff_append.1 h
    refine ⟨hi, fun j hj => ?_⟩
    have hs : (List.finRange n).Pairwise (· < ·) := List.pairwise_lt_finRange n
    have hm : j ∈ List.finRange n := List.mem_finRange j
    rw [hl] at hs hm
    rcases List.mem_append.1 hm with h1 | h1
    · simpa using hn j h1
    · rcases List.mem_cons.1 h1 with rfl | h2
      · exact absurd hj (Fin.lt_irrefl _)
      · have := (List.pairwise_cons.1 (List.pairwise_append.1 hs).2.1).1 j h2
        exact absurd hj (Nat.lt_asymm this)
  · rintro ⟨hi, hn⟩
    cases h : (List.finRange n).find? f with
    | none =>
      have := List.find?_eq_none.1 h i (List.mem_finRange i)
      exact absurd hi this
    | some j =>
      obtain ⟨hj, as, bs, hl, hb⟩ := List.find?_eq_some_iff_append.1 h
      have hs : (List.finRange n).Pairwise (· < ·) := List.pairwise_lt_finRange n
      have hm : i ∈ List.finRange n := List.mem_finRange i
      rw [hl] at hs hm
      rcases List.mem_append.1 hm with h1 | h1
      · have := hb i h1
        simp [hi] at this
      · rcases List.mem_cons.1 h1 with rfl | h2
        · rfl
        · have := (List.pairwise_cons.1 (List.pairwise_append.1 hs).2.1).1 i h2
          simp [hn j this] at hj

theorem find?_finRange_eq_none {n : Nat} {f : Fin n → Bool} :
    (List.finRange n).find? f = none ↔ ∀ j, f j = false := by
  simp [List.find?_eq_none]

/-- The lowest element of `finRange` that gives a value. -/
theorem findSome?_finRange_eq_some {n : Nat} {α : Type} {f : Fin n → Option α} {x : α} :
    (List.finRange n).findSome? f = some x ↔ ∃ i, f i = some x ∧ ∀ j, j < i → f j = none := by
  constructor
  · intro h
    obtain ⟨as, i, bs, hl, hi, hn⟩ := List.findSome?_eq_some_iff.1 h
    refine ⟨i, hi, fun j hj => ?_⟩
    have hs : (List.finRange n).Pairwise (· < ·) := List.pairwise_lt_finRange n
    have hm : j ∈ List.finRange n := List.mem_finRange j
    rw [hl] at hs hm
    rcases List.mem_append.1 hm with h1 | h1
    · exact hn j h1
    · rcases List.mem_cons.1 h1 with rfl | h2
      · exact absurd hj (Fin.lt_irrefl _)
      · have := (List.pairwise_cons.1 (List.pairwise_append.1 hs).2.1).1 j h2
        exact absurd hj (Nat.lt_asymm this)
  · rintro ⟨i, hi, hn⟩
    cases h : (List.finRange n).findSome? f with
    | none =>
      have := List.findSome?_eq_none_iff.1 h i (List.mem_finRange i)
      simp [hi] at this
    | some y =>
      obtain ⟨as, j, bs, hl, hj, hb⟩ := List.findSome?_eq_some_iff.1 h
      have hs : (List.finRange n).Pairwise (· < ·) := List.pairwise_lt_finRange n
      have hm : i ∈ List.finRange n := List.mem_finRange i
      rw [hl] at hs hm
      rcases List.mem_append.1 hm with h1 | h1
      · simp [hb i h1] at hi
      · rcases List.mem_cons.1 h1 with rfl | h2
        · rw [← hj, hi]
        · have := (List.pairwise_cons.1 (List.pairwise_append.1 hs).2.1).1 i h2
          simp [hn j this] at hj

theorem findSome?_finRange_eq_none {n : Nat} {α : Type} {f : Fin n → Option α} :
    (List.finRange n).findSome? f = none ↔ ∀ j, f j = none := by
  simp [List.findSome?_eq_none_iff]

/-- Searching a filtered list is searching with both conditions. -/
theorem find?_filter_and {α : Type} (l : List α) (p q : α → Bool) :
    (l.filter p).find? q = l.find? fun a => p a && q a := by
  induction l with
  | nil => rfl
  | cons a l ih => cases hp : p a <;> simp [hp, ih, List.find?_cons]

theorem findSome?_filter_if {α β : Type} (l : List α) (p : α → Bool) (f : α → Option β) :
    (l.filter p).findSome? f = l.findSome? fun a => if p a then f a else none := by
  induction l with
  | nil => rfl
  | cons a l ih => cases hp : p a <;> simp [hp, ih, List.findSome?_cons]

/-- Two ranges share a byte as `sharesByte` computes it. -/
theorem sharesByte_iff {lo hi lo' hi' : Nat} : sharesByte lo hi lo' hi' = true ↔ Overlap lo hi lo' hi' := by
  simp only [sharesByte, Overlap, decide_eq_true_eq]
  constructor
  · intro h
    exact ⟨max lo lo', by omega, by omega, by omega, by omega⟩
  · rintro ⟨x, h1, h2, h3, h4⟩
    omega

/-! ## The enable request (R37) -/

/-- The lowest other source whose working aperture the aperture meets, as check 6 finds it. -/
theorem meetsSource_iff {s : State} {src : SourceId} {a : Aperture} {o : SourceId} :
    (o != src && (match s.apertures[o] with
      | some b => sharesByte a.base (apertureEnd a) b.base (apertureEnd b)
      | none => false)) = true ↔ MeetsSource s src a o := by
  unfold MeetsSource
  cases h : s.apertures[o] with
  | none => simp
  | some b => simp [sharesByte_iff, apertureEnd]

theorem meetsPanel_iff {g : Geometry} {a : Aperture} {p : PanelId} :
    (isGrid g p && sharesByte a.base (apertureEnd a) g.panels[p].base (bufferEnd g p)) = true ↔ MeetsPanel g a p := by
  simp [MeetsPanel, sharesByte_iff, apertureEnd, bufferEnd]

/-- A search that answers the first failure, or none where there is none, is characterised by both. -/
theorem first_failure_of {α : Type} {f : Option (Nat × α)} {fails : Nat → α → Prop}
    (hs : ∀ n x, f = some (n, x) → FirstFailure fails n x) (hn : f = none → NoFailure fails)
    (hu : ∀ n x y, fails n x → fails n y → x = y) :
    (∀ n x, f = some (n, x) ↔ FirstFailure fails n x) ∧ (f = none ↔ NoFailure fails) := by
  constructor
  · refine fun n x => ⟨hs n x, fun h => ?_⟩
    cases hf : f with
    | none => exact absurd h.1 (hn hf n x)
    | some q =>
      obtain ⟨m, y⟩ := q
      have hm := hs m y hf
      rcases Nat.lt_trichotomy m n with hlt | rfl | hgt
      · exact absurd hm.1 (h.2 m hlt y)
      · rw [hu m x y h.1 hm.1]
      · exact absurd h.1 (hm.2 n hgt x)
  · refine ⟨hn, fun h => ?_⟩
    cases hf : f with
    | none => rfl
    | some q => exact absurd (hs q.1 q.2 hf).1 (h q.1 q.2)

/-- A lowest element is the only one. -/
theorem lowest_unique {n : Nat} {P : Fin n → Prop} {i j : Fin n} (hi : P i) (hj : P j) (hli : ∀ k, k < i → ¬ P k)
    (hlj : ∀ k, k < j → ¬ P k) : i = j := by
  rcases Nat.lt_trichotomy i.val j.val with h | h | h
  · exact absurd hi (hlj i h)
  · exact Fin.ext h
  · exact absurd hj (hli j h)

/-- The search of check 6 (R37). -/
theorem find_source_eq {s : State} {src : SourceId} {a : Aperture} :
    (∀ o, (List.finRange 32).find? (fun o => o != src && (match s.apertures[o] with
        | some b => sharesByte a.base (apertureEnd a) b.base (apertureEnd b)
        | none => false)) = some o ↔ MeetsSource s src a o ∧ ∀ q, q < o → ¬ MeetsSource s src a q)
    ∧ ((List.finRange 32).find? (fun o => o != src && (match s.apertures[o] with
        | some b => sharesByte a.base (apertureEnd a) b.base (apertureEnd b)
        | none => false)) = none ↔ ∀ o, ¬ MeetsSource s src a o) := by
  simp only [find?_finRange_eq_some, find?_finRange_eq_none, ← Bool.not_eq_true, meetsSource_iff, implies_true, and_self]

/-- The search of check 7 of R37, and of check 11 of R26 for one source. -/
theorem find_panel_eq {g : Geometry} {a : Aperture} :
    (∀ p, (gridPanels g).find? (fun p => sharesByte a.base (apertureEnd a) g.panels[p].base (bufferEnd g p)) = some p
        ↔ MeetsPanel g a p ∧ ∀ q, q < p → ¬ MeetsPanel g a q)
    ∧ ((gridPanels g).find? (fun p => sharesByte a.base (apertureEnd a) g.panels[p].base (bufferEnd g p)) = none
        ↔ ∀ p, ¬ MeetsPanel g a p) := by
  simp only [gridPanels, find?_filter_and, find?_finRange_eq_some, find?_finRange_eq_none, ← Bool.not_eq_true,
    meetsPanel_iff, implies_true, and_self]

/-- The refusal of an enable request is the first check of R37 that fails; it is accepted where none fails. -/
theorem enableRefusal_iff {s : State} {src : SourceId} :
    (∀ n x, enableRefusal s src = some (n, x) ↔ FirstFailure (EnableFails s src (shadowAperture s.shadow src)) n x)
    ∧ (enableRefusal s src = none ↔ NoFailure (EnableFails s src (shadowAperture s.shadow src))) := by
  simp only [enableRefusal]
  generalize shadowAperture s.shadow src = a
  have he : apertureEnd a = a.base + a.frameHeight * a.pitch := rfl
  have h6 := find_source_eq (s := s) (src := src) (a := a)
  have h7 := find_panel_eq (g := s.geometry) (a := a)
  apply first_failure_of
  · intro n x h
    split at h
    · cases h
      exact ⟨.frameSize ‹_›, fun m hm y hf => by cases hf <;> omega⟩
    split at h
    · cases h
      exact ⟨.apertureBase (by omega), fun m hm y hf => by cases hf <;> omega⟩
    split at h
    · cases h
      exact ⟨.aperturePitch (by omega), fun m hm y hf => by cases hf <;> omega⟩
    have r : Config.addressSpace = 2 ^ 40 := rfl
    rw [r, he] at h
    split at h
    · cases h
      exact ⟨.apertureRange ‹_›, fun m hm y hf => by cases hf <;> omega⟩
    split at h
    · rename_i h5
      cases h
      exact ⟨.apertureControl (sharesByte_iff.1 h5), fun m hm y hf => by cases hf <;> omega⟩
    rename_i h5
    have n5 := fun q => h5 (sharesByte_iff.2 q)
    simp only [← he] at h
    split at h
    · rename_i o ho
      cases h
      exact ⟨.apertureSource o ((h6.1 o).1 ho).1 ((h6.1 o).1 ho).2,
        fun m hm y hf => by cases hf <;> first | omega | contradiction⟩
    rename_i ho
    have n6 := h6.2.1 ho
    split at h
    · obtain ⟨p, hp, e⟩ := Option.map_eq_some_iff.1 h
      cases e
      refine ⟨.aperturePanel p ‹_› ((h7.1 p).1 hp).1 ((h7.1 p).1 hp).2, fun m hm y hf => ?_⟩
      cases hf <;> first | omega | contradiction | exact absurd ‹_› (n6 _)
    · cases h
  · intro h n x hf
    split at h
    · cases h
    split at h
    · cases h
    split at h
    · cases h
    have r : Config.addressSpace = 2 ^ 40 := rfl
    rw [r, he] at h
    split at h
    · cases h
    split at h
    · cases h
    rename_i h5
    have n5 := fun q => h5 (sharesByte_iff.2 q)
    simp only [← he] at h
    split at h
    · cases h
    rename_i ho
    have n6 := h6.2.1 ho
    cases hf <;> first | omega | contradiction | exact absurd ‹_› (n6 _) | skip
    rename_i p hm hp hl
    rw [if_pos hm, Option.map_eq_none_iff] at h
    exact h7.2.1 h p hp
  · intro n x y hx hy
    cases hx <;> cases hy <;> first | rfl | (congr 1; exact congrArg Fin.val (lowest_unique ‹_› ‹_› ‹_› ‹_›))

/-! ## Validation (R105) -/

/-- The search of check 5 (R105). -/
theorem layerHolder_iff {m : Shadow} {w : WindowId} :
    (∀ v, layerHolder m w (stageWindow m w).layer = some v ↔ SameLayer m w v ∧ ∀ u, u < v → ¬ SameLayer m w u)
    ∧ (layerHolder m w (stageWindow m w).layer = none ↔ ∀ v, ¬ SameLayer m w v) := by
  have e : ∀ v : WindowId, (decide (v.val < w.val) && (stageWindow m v).state != .unused
      && (stageWindow m v).layer == (stageWindow m w).layer) = true ↔ SameLayer m w v := by
    intro v
    simp [SameLayer, and_assoc]
  simp only [layerHolder, find?_finRange_eq_some, find?_finRange_eq_none, ← Bool.not_eq_true, e, implies_true, and_self]

/-- The refusal of a window is the first check of R105 that fails. -/
theorem windowRefusal_iff {m : Shadow} {w : WindowId} :
    (∀ n x, windowRefusal m w = some (n, x) ↔ FirstFailure (WindowFails m w (stageWindow m w)) n x)
    ∧ (windowRefusal m w = none ↔ NoFailure (WindowFails m w (stageWindow m w))) := by
  have h5 := layerHolder_iff (m := m) (w := w)
  simp only [windowRefusal]
  generalize stageWindow m w = r at h5 ⊢
  have e1 : (31 < r.primary ∨ 31 < r.alternate.getD 0) ↔ (31 < r.primary ∨ ∃ a, r.alternate = some a ∧ 31 < a) := by
    cases r.alternate <;> simp
  have e2 : ∀ a n l : Nat, extentFails a n l = true ↔ n = 0 ∨ l < a + n := by simp [extentFails]
  have e4 : ∀ c d : Nat, scaleFails c d = true ↔ 16 * d < c ∨ 8 * c < d := by simp [scaleFails]
  simp only [e1, e2, e4]
  apply first_failure_of
  · intro n x h
    split at h
    · cases h
      exact ⟨.sourceId ‹_›, fun m hm y hf => by cases hf <;> omega⟩
    split at h
    · cases h
      exact ⟨.cropRange (by omega), fun m hm y hf => by cases hf <;> first | omega | contradiction⟩
    split at h
    · cases h
      exact ⟨.placeRange (by omega), fun m hm y hf => by cases hf <;> first | omega | contradiction⟩
    split at h
    · cases h
      exact ⟨.scaleRange (by omega), fun m hm y hf => by cases hf <;> first | omega | contradiction⟩
    split at h
    · rename_i v hv
      cases h
      exact ⟨.layerDuplicate v ((h5.1 v).1 hv).1 ((h5.1 v).1 hv).2,
        fun m hm y hf => by cases hf <;> first | omega | contradiction⟩
    rename_i hv
    have n5 := h5.2.1 hv
    split at h
    · rename_i h6
      cases h
      refine ⟨.alternate h6.1 h6.2, fun m hm y hf => ?_⟩
      cases hf <;> first | omega | contradiction | exact absurd ‹_› (n5 _)
    · cases h
  · intro h n x hf
    split at h
    · cases h
    split at h
    · cases h
    split at h
    · cases h
    split at h
    · cases h
    split at h
    · cases h
    rename_i hv
    have n5 := h5.2.1 hv
    split at h
    · cases h
    · rename_i h6
      cases hf <;> first | omega | contradiction | exact absurd ‹_› (n5 _) | exact h6 ⟨‹_›, ‹_›⟩
  · intro n x y hx hy
    cases hx <;> cases hy <;> first | rfl | exact congrArg some (lowest_unique ‹_› ‹_› ‹_› ‹_›)

/-- Validation ends in the refusal of the lowest window that fails, and STAGE is valid where none fails (R105). -/
theorem validate_iff {m : Shadow} :
    (∀ r, validate m = some r ↔ StageRefused m r) ∧ (validate m = none ↔ StageValid m) := by
  have key : ∀ w, (if (stageWindow m w).state = .unused then none
      else (windowRefusal m w).map fun q => { window := w, reason := q.1, other := q.2 : CommitRefusal }) = none
      ↔ ((stageWindow m w).state ≠ .unused → NoFailure (WindowFails m w (stageWindow m w))) := by
    intro w
    by_cases h : (stageWindow m w).state = .unused
    · simp [h]
    · simp [h, windowRefusal_iff.2]
  constructor
  · rintro ⟨w, n, x⟩
    simp only [validate, findSome?_finRange_eq_some, key, StageRefused]
    constructor
    · rintro ⟨v, hv, hl⟩
      by_cases hu : (stageWindow m v).state = .unused
      · simp [hu] at hv
      · rw [if_neg hu, Option.map_eq_some_iff] at hv
        obtain ⟨q, hq, e⟩ := hv
        cases e
        exact ⟨hu, (windowRefusal_iff.1 _ _).1 hq, hl⟩
    · rintro ⟨hu, hf, hl⟩
      refine ⟨w, ?_, hl⟩
      rw [if_neg hu, (windowRefusal_iff.1 _ _).2 hf]
      rfl
  · simp only [validate, findSome?_finRange_eq_none, key, StageValid]

/-! ## The RUN entry (R26) -/

/-- A search that answers the lowest failing number, put in a form `mk`, is characterised by what it answers. -/
theorem lowest_check_of {β : Type} {f : Option β} {mk : Nat → β} {fails : Nat → Prop}
    (hs : ∀ c, f = some c → ∃ n, c = mk n ∧ fails n ∧ ∀ m, m < n → ¬ fails m) (hn : f = none → ∀ n, ¬ fails n) :
    (∀ c, f = some c ↔ ∃ n, c = mk n ∧ fails n ∧ ∀ m, m < n → ¬ fails m) ∧ (f = none ↔ ∀ n, ¬ fails n) := by
  refine ⟨fun c => ⟨hs c, ?_⟩, hn, fun h => ?_⟩
  · rintro ⟨n, rfl, hf, hl⟩
    cases hw : f with
    | none => exact absurd hf (hn hw n)
    | some d =>
      obtain ⟨k, rfl, hk, hlk⟩ := hs d hw
      rcases Nat.lt_trichotomy k n with h | rfl | h
      · exact absurd hk (hl k h)
      · rfl
      · exact absurd hf (hlk n h)
  · cases hw : f with
    | none => rfl
    | some d =>
      obtain ⟨k, _, hk, _⟩ := hs d hw
      exact absurd hk (h k)

/-- Checks 1 to 4 find the first that fails. -/
theorem wallCheck_iff {g : Geometry} :
    (∀ c, wallCheck g = some c ↔ ∃ n, c = (n, none, none) ∧ WallFails g n ∧ ∀ m, m < n → ¬ WallFails g m)
    ∧ (wallCheck g = none ↔ ∀ n, ¬ WallFails g n) := by
  have e1 : gridCount g = g.columns * g.rows := rfl
  have e2 : wallWidth g = g.columns * (g.panelWidth + g.bezelX) - g.bezelX := rfl
  have e3 : wallHeight g = g.rows * (g.panelHeight + g.bezelY) - g.bezelY := rfl
  have hs : ∀ c, wallCheck g = some c → ∃ n, c = (n, none, none) ∧ WallFails g n ∧ ∀ m, m < n → ¬ WallFails g m := by
    intro c h
    unfold wallCheck at h
    split at h
    · cases h
      exact ⟨1, rfl, .grid (by omega), fun m hm hf => by cases hf <;> omega⟩
    split at h
    · cases h
      exact ⟨2, rfl, .panelSize (by omega), fun m hm hf => by cases hf <;> omega⟩
    split at h
    · cases h
      exact ⟨3, rfl, .bezel (by omega), fun m hm hf => by cases hf <;> omega⟩
    split at h
    · cases h
      exact ⟨4, rfl, .wallSize (by omega), fun m hm hf => by cases hf <;> omega⟩
    · cases h
  have hn : wallCheck g = none → ∀ n, ¬ WallFails g n := by
    intro h n hf
    unfold wallCheck at h
    split at h
    · cases h
    split at h
    · cases h
    split at h
    · cases h
    split at h
    · cases h
    cases hf <;> omega
  exact lowest_check_of hs hn

/-- Checks 5 to 9 of one panel find the first that fails. -/
theorem panelCheck_iff {s : State} {g : Geometry} {p : PanelId} :
    (∀ c, panelCheck s g p = some c
      ↔ ∃ n, c = (n, some p.val, none) ∧ PanelFails s g p n ∧ ∀ m, m < n → ¬ PanelFails s g p m)
    ∧ (panelCheck s g p = none ↔ ∀ n, ¬ PanelFails s g p n) := by
  have hb : bufferEnd g p = g.panels[p].base + g.panelHeight * g.panels[p].pitch := rfl
  have hr : Config.addressSpace = 2 ^ 40 := rfl
  have hs : ∀ c, panelCheck s g p = some c →
      ∃ n, c = (n, some p.val, none) ∧ PanelFails s g p n ∧ ∀ m, m < n → ¬ PanelFails s g p m := by
    intro c h
    simp only [panelCheck, hb, hr] at h
    split at h
    · cases h
      exact ⟨5, rfl, .panelBase (by omega), fun m hm hf => by cases hf <;> omega⟩
    split at h
    · cases h
      exact ⟨6, rfl, .panelPitch (by omega), fun m hm hf => by cases hf <;> omega⟩
    split at h
    · cases h
      exact ⟨7, rfl, .panelRange ‹_›, fun m hm hf => by cases hf <;> omega⟩
    split at h
    · cases h
      exact ⟨8, rfl, .panelScanout ‹_›, fun m hm hf => by cases hf <;> omega⟩
    split at h
    · rename_i h9
      cases h
      exact ⟨9, rfl, .panelControl (sharesByte_iff.1 h9), fun m hm hf => by cases hf <;> omega⟩
    · cases h
  have hn : panelCheck s g p = none → ∀ n, ¬ PanelFails s g p n := by
    intro h n hf
    simp only [panelCheck, hb, hr] at h
    split at h
    · cases h
    split at h
    · cases h
    split at h
    · cases h
    split at h
    · cases h
    split at h
    · cases h
    rename_i h9
    have n9 := fun q => h9 (sharesByte_iff.2 q)
    cases hf <;> first | omega | contradiction
  exact lowest_check_of hs hn

/-- Checks 5 to 9 of all grid panels find the lowest panel that fails. -/
theorem panelChecks_iff {s : State} {g : Geometry} :
    (∀ c, (gridPanels g).findSome? (panelCheck s g) = some c ↔ ∃ p n, c = (n, some p.val, none) ∧ isGrid g p = true
      ∧ PanelFails s g p n ∧ (∀ m, m < n → ¬ PanelFails s g p m)
      ∧ ∀ q, q < p → isGrid g q = true → ∀ m, ¬ PanelFails s g q m)
    ∧ ((gridPanels g).findSome? (panelCheck s g) = none ↔ PanelsPass s g) := by
  have hn : ∀ q, (if isGrid g q = true then panelCheck s g q else none) = none
      ↔ (isGrid g q = true → ∀ m, ¬ PanelFails s g q m) := by
    intro q
    by_cases h : isGrid g q = true
    · simp [h, panelCheck_iff.2]
    · simp [h]
  simp only [gridPanels, findSome?_filter_if, findSome?_finRange_eq_some, findSome?_finRange_eq_none, hn, PanelsPass,
    and_true]
  intro c
  constructor
  · rintro ⟨p, hp, hl⟩
    by_cases h : isGrid g p = true
    · rw [if_pos h, panelCheck_iff.1] at hp
      obtain ⟨n, e, hf, hm⟩ := hp
      exact ⟨p, n, e, h, hf, hm, hl⟩
    · simp [h] at hp
  · rintro ⟨p, n, e, h, hf, hm, hl⟩
    exact ⟨p, by rw [if_pos h, panelCheck_iff.1]; exact ⟨n, e, hf, hm⟩, hl⟩

/-- The search of check 10 for one panel. -/
theorem overlapCheck_iff {g : Geometry} {p : PanelId} (h : isGrid g p = true) :
    (∀ c, overlapCheck g p = some c
      ↔ ∃ q, c = (10, some p.val, some q.val) ∧ BuffersMeet g p q ∧ ∀ q', q' < q → ¬ BuffersMeet g p q')
    ∧ (overlapCheck g p = none ↔ ∀ q, ¬ BuffersMeet g p q) := by
  have e : ∀ q : PanelId, (isGrid g q && (decide (q.val < p.val) && sharesByte g.panels[p].base (bufferEnd g p)
      g.panels[q].base (bufferEnd g q))) = true ↔ BuffersMeet g p q := by
    intro q
    simp [BuffersMeet, h, sharesByte_iff, bufferEnd]
  simp only [overlapCheck, gridPanels, find?_filter_and, Option.map_eq_some_iff, Option.map_eq_none_iff,
    find?_finRange_eq_some, find?_finRange_eq_none, ← Bool.not_eq_true, e, and_true]
  intro c
  constructor
  · rintro ⟨q, h1, rfl⟩
    exact ⟨q, rfl, h1⟩
  · rintro ⟨q, rfl, h1⟩
    exact ⟨q, h1, rfl⟩

/-- Check 10 finds the first pair that meets. -/
theorem overlapChecks_iff {g : Geometry} :
    (∀ c, (gridPanels g).findSome? (overlapCheck g) = some c ↔ ∃ p q, c = (10, some p.val, some q.val)
      ∧ BuffersMeet g p q ∧ (∀ q', q' < q → ¬ BuffersMeet g p q') ∧ ∀ p', p' < p → ∀ q', ¬ BuffersMeet g p' q')
    ∧ ((gridPanels g).findSome? (overlapCheck g) = none ↔ ∀ p q, ¬ BuffersMeet g p q) := by
  have hn : ∀ p, (if isGrid g p = true then overlapCheck g p else none) = none ↔ ∀ q, ¬ BuffersMeet g p q := by
    intro p
    by_cases h : isGrid g p = true
    · simp [h, (overlapCheck_iff h).2]
    · simp [h, BuffersMeet]
  simp only [gridPanels, findSome?_filter_if, findSome?_finRange_eq_some, findSome?_finRange_eq_none, hn, and_true]
  intro c
  constructor
  · rintro ⟨p, hp, hl⟩
    by_cases h : isGrid g p = true
    · rw [if_pos h, (overlapCheck_iff h).1] at hp
      obtain ⟨q, e, hm, hq⟩ := hp
      exact ⟨p, q, e, hm, hq, hl⟩
    · simp [h] at hp
  · rintro ⟨p, q, e, hm, hq, hl⟩
    exact ⟨p, by rw [if_pos hm.1, (overlapCheck_iff hm.1).1]; exact ⟨q, e, hm, hq⟩, hl⟩

/-- Check 11 finds the first source and panel that meet. -/
theorem apertureChecks_iff {s : State} {g : Geometry} :
    (∀ c, (List.finRange 32).findSome? (apertureCheck s g) = some c ↔ ∃ src p, c = (11, some src.val, some p.val)
      ∧ ApertureMeets s g src p ∧ (∀ q, q < p → ¬ ApertureMeets s g src q)
      ∧ ∀ src', src' < src → ∀ q, ¬ ApertureMeets s g src' q)
    ∧ ((List.finRange 32).findSome? (apertureCheck s g) = none ↔ ∀ src p, ¬ ApertureMeets s g src p) := by
  have hn : ∀ src, apertureCheck s g src = none ↔ ∀ p, ¬ ApertureMeets s g src p := by
    intro src
    unfold apertureCheck ApertureMeets
    cases h : s.apertures[src] with
    | none => simp
    | some a => simp only [Option.map_eq_none_iff, find_panel_eq.2, Option.some.injEq, exists_eq_left']
  simp only [findSome?_finRange_eq_some, findSome?_finRange_eq_none, hn, and_true]
  have hs : ∀ src c, apertureCheck s g src = some c ↔ ∃ p, c = (11, some src.val, some p.val)
      ∧ ApertureMeets s g src p ∧ ∀ q, q < p → ¬ ApertureMeets s g src q := by
    intro src c
    unfold apertureCheck ApertureMeets
    cases h : s.apertures[src] with
    | none => simp
    | some a =>
      simp only [Option.map_eq_some_iff, find_panel_eq.1, Option.some.injEq, exists_eq_left']
      constructor
      · rintro ⟨p, h1, rfl⟩
        exact ⟨p, rfl, h1⟩
      · rintro ⟨p, rfl, h1⟩
        exact ⟨p, h1, rfl⟩
  intro c
  constructor
  · rintro ⟨src, hp, hl⟩
    obtain ⟨p, e, hm, hq⟩ := (hs src c).1 hp
    exact ⟨src, p, e, hm, hq, hl⟩
  · rintro ⟨src, p, e, hm, hq, hl⟩
    exact ⟨src, (hs src c).2 ⟨p, e, hm, hq⟩, hl⟩

/-- The RUN entry finds the first check of R26 that fails, and passes where none fails. -/
theorem runCheck_iff {s : State} :
    (∀ n a b, runCheck s = some (n, a, b) ↔ RunRefused s (shadowGeometry s.shadow) n a b)
    ∧ (runCheck s = none ↔ RunPasses s (shadowGeometry s.shadow)) := by
  simp only [runCheck]
  generalize shadowGeometry s.shadow = g
  constructor
  · intro n a b
    simp only [Option.or_eq_some_iff, wallCheck_iff.1, wallCheck_iff.2, panelChecks_iff.1, panelChecks_iff.2,
      overlapChecks_iff.1, overlapChecks_iff.2, apertureChecks_iff.1]
    constructor
    · rintro (⟨k, e, hf, hl⟩ | ⟨hw, ⟨p, k, e, hg, hf, hm, hl⟩ | ⟨hp, ⟨p, q, e, hm, hq, hl⟩
        | ⟨ho, src, p, e, hm, hq, hl⟩⟩⟩)
      · cases e
        exact .wall n hf hl
      · cases e
        exact .panel p n hw hg hf hm hl
      · cases e
        exact .buffers p q hw hp hm hq hl
      · cases e
        exact .apertures src p hw hp ho hm hq hl
    · intro h
      cases h with
      | wall _ hf hl => exact .inl ⟨n, rfl, hf, hl⟩
      | panel p _ hw hg hf hm hl => exact .inr ⟨hw, .inl ⟨p, n, rfl, hg, hf, hm, hl⟩⟩
      | buffers p q hw hp hm hq hl => exact .inr ⟨hw, .inr ⟨hp, .inl ⟨p, q, rfl, hm, hq, hl⟩⟩⟩
      | apertures src p hw hp ho hm hq hl => exact .inr ⟨hw, .inr ⟨hp, .inr ⟨ho, src, p, rfl, hm, hq, hl⟩⟩⟩
  · simp only [Option.or_eq_none_iff, wallCheck_iff.2, panelChecks_iff.2, overlapChecks_iff.2, apertureChecks_iff.2]
    exact ⟨fun h => ⟨h.1, h.2.1, h.2.2.1, h.2.2.2⟩, fun h => ⟨h.wall, h.panels, h.buffers, h.apertures⟩⟩

/-! ## Control words (R153) -/

/-- The low byte of a word of a write once it is merged. -/
theorem merged_code {s : State} {t : Txn} {k : Nat} :
    field (wordOf (mergedByte s.shadow t (controlOffset s t) (4 * k)) (mergedByte s.shadow t (controlOffset s t) (4 * k + 1))
      (mergedByte s.shadow t (controlOffset s t) (4 * k + 2)) (mergedByte s.shadow t (controlOffset s t) (4 * k + 3))) 0 8
      = mergedCode s t k := by
  have low : ∀ b0 b1 b2 b3 : Byte, field (wordOf b0 b1 b2 b3) 0 8 = b0.toNat := by
    intro b0 b1 b2 b3
    unfold field wordOf
    congr 1
    apply BitVec.eq_of_getLsbD_eq
    intro i hi
    simp only [BitVec.getLsbD_extractLsb', BitVec.getLsbD_append]
    simp [hi]
  rw [low]
  rfl

theorem isPartPosted_iff {off : Nat} : isPartPosted off = true ↔ (0x200 ≤ off ∧ off < 0x400)
    ∨ (∃ w : WindowId, off = 0x3004 + 8 * w.val) ∨ (0x4000 ≤ off ∧ off < 0x5000) ∨ (0x8000 ≤ off ∧ off < 0x8100) := by
  have e : (∃ w : WindowId, off = 0x3004 + 8 * w.val) ↔ 0x3000 ≤ off ∧ off < 0x3200 ∧ off % 8 = 4 :=
    ⟨fun ⟨w, h⟩ => by omega, fun h => ⟨⟨(off - 0x3004) / 8, by omega⟩, by simp only; omega⟩⟩
  simp only [e, isPartPosted, Bool.or_eq_true, Bool.and_eq_true, decide_eq_true_eq, beq_iff_eq]
  omega

theorem isSetupOnly_iff {off : Nat} : isSetupOnly off = true ↔ off < 0x1C ∨ (0x800 ≤ off ∧ off < 0xA00) := by
  simp [isSetupOnly]

theorem stagingWindow_iff {off : Nat} {w : WindowId} :
    stagingWindow off = some w ↔ 0x2000 + 64 * w.val ≤ off ∧ off < 0x2000 + 64 * w.val + 64 := by
  unfold stagingWindow
  split
  · simp only [Option.some.injEq, Fin.ext_iff]
    omega
  · simp only [reduceCtorEq, false_iff]
    omega

theorem requestWindow_iff {off : Nat} {w : WindowId} : requestWindow off = some w ↔ off = 0x3000 + 8 * w.val := by
  unfold requestWindow
  split
  · simp only [Option.some.injEq, Fin.ext_iff]
    omega
  · simp only [reduceCtorEq, false_iff]
    omega

theorem ownedByOther_iff {s : State} {i : Initiator} {w : WindowId} :
    ownedByOther s i w = true ↔ ∃ o pr, s.owners[w] = .owned o pr ∧ o ≠ i := by
  unfold ownedByOther
  cases h : s.owners[w] <;> simp

theorem requestRefusal_iff {s : State} {i : Initiator} {w : WindowId} {code n : Nat} :
    requestRefusal s i w code = some n ↔ (code = 1 ∧ ownedByOther s i w = true ∧ n = 5)
      ∨ (code = 2 ∧ (s.owners[w] = .free ∨ ownedByOther s i w = true) ∧ n = 4)
      ∨ (code = 3 ∧ isPriority s i = false ∧ n = 6) ∨ (4 ≤ code ∧ n = 7) := by
  match code with
  | 0 => simp [requestRefusal]
  | 1 => simp [requestRefusal, @eq_comm Nat n]
  | 2 => simp [requestRefusal, @eq_comm Nat n]
  | 3 => cases h : isPriority s i <;> simp [requestRefusal, h, @eq_comm Nat n]
  | k + 4 => simp [requestRefusal, @eq_comm Nat n]

/-- The reason of a word's refusal is the one that R153 and R156 give for it, if any. -/
theorem wordRefusal_iff {s : State} {i : Initiator} {w : ControlWord} {n : Nat} :
    wordRefusal s i w = some n ↔ RefusedFor s i w.offset (field w.merged 0 8) n := by
  unfold wordRefusal
  generalize field w.merged 0 8 = code
  generalize w.offset = off
  constructor
  · intro h
    split at h
    · cases h
      exact .notConsole (by simpa using ‹(!isConsole s i) = true›)
    rename_i hc
    have hc : isConsole s i = true := by simpa using hc
    split at h
    · cases h
      exact .partPosted hc (isPartPosted_iff.1 ‹_›)
    split at h
    · rename_i hr
      cases h
      exact .setupOnly hc hr.1 (isSetupOnly_iff.1 hr.2)
    split at h
    · rename_i v hv
      obtain ⟨h1, h2⟩ := stagingWindow_iff.1 hv
      split at h
      · cases h
        obtain ⟨o, pr, h3, h4⟩ := ownedByOther_iff.1 ‹_›
        exact .notOwner v o pr hc h1 h2 h3 h4
      · cases h
    · split at h
      · rename_i v hv
        have ho := requestWindow_iff.1 hv
        rcases requestRefusal_iff.1 h with ⟨rfl, h1, rfl⟩ | ⟨rfl, h1, rfl⟩ | ⟨rfl, h1, rfl⟩ | ⟨h1, rfl⟩
        · obtain ⟨o, pr, h3, h4⟩ := ownedByOther_iff.1 h1
          exact .claimOwned v o pr hc ho rfl h3 h4
        · rcases h1 with h1 | h1
          · exact .releaseFree v hc ho rfl h1
          · obtain ⟨o, pr, h3, h4⟩ := ownedByOther_iff.1 h1
            exact .releaseOther v o pr hc ho rfl h3 h4
        · exact .seizeNotPriority v hc ho rfl h1
        · exact .badRequest v hc ho h1
      · cases h
  · intro h
    -- A request word is neither posted by the part nor open in SETUP alone, and lies in no staging record.
    have request : ∀ v : WindowId, off = 0x3000 + 8 * v.val → isPartPosted off = false ∧ isSetupOnly off = false
        ∧ stagingWindow off = none ∧ requestWindow off = some v := by
      intro v hv
      refine ⟨?_, ?_, ?_, requestWindow_iff.2 hv⟩
      · rw [← Bool.not_eq_true, isPartPosted_iff]
        omega
      · rw [← Bool.not_eq_true, isSetupOnly_iff]
        omega
      · rw [Option.eq_none_iff_forall_not_mem]
        intro u hu
        have := stagingWindow_iff.1 hu
        omega
    have asked : ∀ v : WindowId, isConsole s i = true → off = 0x3000 + 8 * v.val → requestRefusal s i v code = some n →
        (if (!isConsole s i) = true then some 1 else if isPartPosted off = true then some 2
          else if s.mode = .run ∧ isSetupOnly off = true then some 3
          else match stagingWindow off with
            | some v => if ownedByOther s i v = true then some 4 else none
            | none => match requestWindow off with
              | some v => requestRefusal s i v code
              | none => none) = some n := by
      intro v hc hv hr
      obtain ⟨h1, h2, h3, h4⟩ := request v hv
      simp [hc, h1, h2, h3, h4, hr]
    cases h with
    | notConsole hc => simp [hc]
    | partPosted hc hp => simp [hc, isPartPosted_iff.2 hp]
    | setupOnly hc hm hp =>
      have h1 : isPartPosted off = false := by
        rw [← Bool.not_eq_true, isPartPosted_iff]
        omega
      simp [hc, h1, hm, isSetupOnly_iff.2 hp]
    | notOwner v o pr hc hlo hhi ho hne =>
      have h1 : isPartPosted off = false := by
        rw [← Bool.not_eq_true, isPartPosted_iff]
        omega
      have h2 : isSetupOnly off = false := by
        rw [← Bool.not_eq_true, isSetupOnly_iff]
        omega
      simp [hc, h1, h2, stagingWindow_iff.2 ⟨hlo, hhi⟩, ownedByOther_iff.2 ⟨o, pr, ho, hne⟩]
    | releaseFree v hc hv hcode ho => exact asked v hc hv (requestRefusal_iff.2 (.inr (.inl ⟨hcode, .inl ho, rfl⟩)))
    | releaseOther v o pr hc hv hcode ho hne =>
      exact asked v hc hv (requestRefusal_iff.2 (.inr (.inl ⟨hcode, .inr (ownedByOther_iff.2 ⟨o, pr, ho, hne⟩), rfl⟩)))
    | claimOwned v o pr hc hv hcode ho hne =>
      exact asked v hc hv (requestRefusal_iff.2 (.inl ⟨hcode, ownedByOther_iff.2 ⟨o, pr, ho, hne⟩, rfl⟩))
    | seizeNotPriority v hc hv hcode hp => exact asked v hc hv (requestRefusal_iff.2 (.inr (.inr (.inl ⟨hcode, hp, rfl⟩))))
    | badRequest v hc hv hcode => exact asked v hc hv (requestRefusal_iff.2 (.inr (.inr (.inr ⟨hcode, rfl⟩))))

theorem isCovered_iff {t : Txn} {k : Nat} : isCovered t k = true ↔ CoversWord t k := by
  simp only [isCovered, CoversWord, strobeOn, Bool.or_eq_true]
  constructor
  · rintro (((h | h) | h) | h)
    · exact ⟨0, by omega, h⟩
    · exact ⟨1, by omega, h⟩
    · exact ⟨2, by omega, h⟩
    · exact ⟨3, by omega, h⟩
  · rintro ⟨j, hj, h⟩
    match j, hj with
    | 0, _ => exact .inl (.inl (.inl h))
    | 1, _ => exact .inl (.inl (.inr h))
    | 2, _ => exact .inl (.inr h)
    | 3, _ => exact .inr h

/-- A write covers no word beyond its strobes. -/
theorem coversWord_lt {t : Txn} {k : Nat} (h : CoversWord t k) : 4 * k < t.strobes.length := by
  obtain ⟨j, _, h⟩ := h
  apply Nat.lt_of_not_le
  intro hl
  rw [List.getD_eq_getElem?_getD, List.getElem?_eq_none (by omega)] at h
  cases h

/-- Word `k` of a control write with its merged value, as `coveredWords` makes it. -/
def wordAt (s : State) (t : Txn) (k : Nat) : ControlWord :=
  { index := k, offset := controlOffset s t + 4 * k
    merged := wordOf (mergedByte s.shadow t (controlOffset s t) (4 * k)) (mergedByte s.shadow t (controlOffset s t) (4 * k + 1))
      (mergedByte s.shadow t (controlOffset s t) (4 * k + 2)) (mergedByte s.shadow t (controlOffset s t) (4 * k + 3)) }

theorem coveredWords_eq (s : State) (t : Txn) : coveredWords s.shadow t (controlOffset s t)
    = ((List.range (t.length / 4)).filter (isCovered t)).map (wordAt s t) := rfl

/-- A word of a control write is refused as `WordRefused` says. -/
theorem wordRefused_iff {s : State} {t : Txn} {k n : Nat} :
    wordRefusal s t.initiator (wordAt s t k) = some n ↔ WordRefused s t k n := by
  rw [wordRefusal_iff]
  show RefusedFor s t.initiator _ (field (wordAt s t k).merged 0 8) n ↔ _
  rw [show field (wordAt s t k).merged 0 8 = mergedCode s t k from merged_code]
  rfl

theorem not_wordRefused_iff {s : State} {t : Txn} {k : Nat} :
    wordRefusal s t.initiator (wordAt s t k) = none ↔ ∀ n, ¬ WordRefused s t k n := by
  simp only [← wordRefused_iff, Option.eq_none_iff_forall_ne_some, ne_eq]

/-- The records of a run are those of its offers. -/
theorem offersFrom_records (s : State) (run : Run) (fuel : Nat) (p : Position) :
    (offersFrom s run fuel p).map (·.1) = recordsFrom s run fuel p := by
  induction fuel generalizing p with
  | zero => rfl
  | succ n ih =>
    unfold offersFrom recordsFrom
    cases nextRecord s run p with
    | none => rfl
    | some q => simp [ih]

theorem runOffers_records (s : State) (run : Run) : (runOffers s run).map (·.1) = runRecords s run :=
  offersFrom_records ..

end Sys2Proof.Machine
end

