-- ==== Sys2Proof/Laws/State.lean ====
section
/-! SUPPORT. What each update of the state does to each field: one lemma for a field, true by definition. -/

namespace Sys2Proof.Machine

/-! ## flagIf -/

@[simp] theorem flagIf_wallTime (b : Bool) (i : PostItem) (s : State) :
    (flagIf b i s).wallTime = s.wallTime := rfl
@[simp] theorem flagIf_ponrst (b : Bool) (i : PostItem) (s : State) :
    (flagIf b i s).ponrst = s.ponrst := rfl
@[simp] theorem flagIf_irq (b : Bool) (i : PostItem) (s : State) :
    (flagIf b i s).irq = s.irq := rfl
@[simp] theorem flagIf_indicators (b : Bool) (i : PostItem) (s : State) :
    (flagIf b i s).indicators = s.indicators := rfl
@[simp] theorem flagIf_baseStrap (b : Bool) (i : PostItem) (s : State) :
    (flagIf b i s).baseStrap = s.baseStrap := rfl
@[simp] theorem flagIf_prioStrap (b : Bool) (i : PostItem) (s : State) :
    (flagIf b i s).prioStrap = s.prioStrap := rfl
@[simp] theorem flagIf_mode (b : Bool) (i : PostItem) (s : State) :
    (flagIf b i s).mode = s.mode := rfl
@[simp] theorem flagIf_shadow (b : Bool) (i : PostItem) (s : State) :
    (flagIf b i s).shadow = s.shadow := rfl
@[simp] theorem flagIf_owners (b : Bool) (i : PostItem) (s : State) :
    (flagIf b i s).owners = s.owners := rfl
@[simp] theorem flagIf_result (b : Bool) (i : PostItem) (s : State) :
    (flagIf b i s).result = s.result := rfl
@[simp] theorem flagIf_geometry (b : Bool) (i : PostItem) (s : State) :
    (flagIf b i s).geometry = s.geometry := rfl
@[simp] theorem flagIf_sync (b : Bool) (i : PostItem) (s : State) :
    (flagIf b i s).sync = s.sync := rfl
@[simp] theorem flagIf_apertures (b : Bool) (i : PostItem) (s : State) :
    (flagIf b i s).apertures = s.apertures := rfl
@[simp] theorem flagIf_cadence (b : Bool) (i : PostItem) (s : State) :
    (flagIf b i s).cadence = s.cadence := rfl
@[simp] theorem flagIf_overrun (b : Bool) (i : PostItem) (s : State) :
    (flagIf b i s).overrun = s.overrun := rfl
@[simp] theorem flagIf_active (b : Bool) (i : PostItem) (s : State) :
    (flagIf b i s).active = s.active := rfl
@[simp] theorem flagIf_next (b : Bool) (i : PostItem) (s : State) :
    (flagIf b i s).next = s.next := rfl
@[simp] theorem flagIf_epochCounter (b : Bool) (i : PostItem) (s : State) :
    (flagIf b i s).epochCounter = s.epochCounter := rfl
@[simp] theorem flagIf_selection (b : Bool) (i : PostItem) (s : State) :
    (flagIf b i s).selection = s.selection := rfl
@[simp] theorem flagIf_panelEpoch (b : Bool) (i : PostItem) (s : State) :
    (flagIf b i s).panelEpoch = s.panelEpoch := rfl
@[simp] theorem flagIf_gates (b : Bool) (i : PostItem) (s : State) :
    (flagIf b i s).gates = s.gates := rfl
@[simp] theorem flagIf_fillCount (b : Bool) (i : PostItem) (s : State) :
    (flagIf b i s).fillCount = s.fillCount := rfl
@[simp] theorem flagIf_queue (b : Bool) (i : PostItem) (s : State) :
    (flagIf b i s).queue = s.queue := rfl
@[simp] theorem flagIf_holds (b : Bool) (i : PostItem) (s : State) :
    (flagIf b i s).holds = s.holds := rfl
@[simp] theorem flagIf_passFifo (b : Bool) (i : PostItem) (s : State) :
    (flagIf b i s).passFifo = s.passFifo := rfl
@[simp] theorem flagIf_passWait (b : Bool) (i : PostItem) (s : State) :
    (flagIf b i s).passWait = s.passWait := rfl
@[simp] theorem flagIf_lastGranted (b : Bool) (i : PostItem) (s : State) :
    (flagIf b i s).lastGranted = s.lastGranted := rfl
@[simp] theorem flagIf_tags (b : Bool) (i : PostItem) (s : State) :
    (flagIf b i s).tags = s.tags := rfl
@[simp] theorem flagIf_exhaustion (b : Bool) (i : PostItem) (s : State) :
    (flagIf b i s).exhaustion = s.exhaustion := rfl
@[simp] theorem flagIf_commit (b : Bool) (i : PostItem) (s : State) :
    (flagIf b i s).commit = s.commit := rfl
@[simp] theorem flagIf_exposure (b : Bool) (i : PostItem) (s : State) :
    (flagIf b i s).exposure = s.exposure := rfl
@[simp] theorem flagIf_marking (b : Bool) (i : PostItem) (s : State) :
    (flagIf b i s).marking = s.marking := rfl
@[simp] theorem flagIf_channel0 (b : Bool) (i : PostItem) (s : State) :
    (flagIf b i s).channel0 = s.channel0 := rfl
@[simp] theorem flagIf_channel1 (b : Bool) (i : PostItem) (s : State) :
    (flagIf b i s).channel1 = s.channel1 := rfl
@[simp] theorem flagIf_poster (b : Bool) (i : PostItem) (s : State) :
    (flagIf b i s).poster = flaggedIf b i s.poster := rfl
@[simp] theorem flagIf_lines (b : Bool) (i : PostItem) (s : State) :
    (flagIf b i s).lines = s.lines := rfl
@[simp] theorem flagIf_ingestOut (b : Bool) (i : PostItem) (s : State) :
    (flagIf b i s).ingestOut = s.ingestOut := rfl
@[simp] theorem flagIf_storeOut (b : Bool) (i : PostItem) (s : State) :
    (flagIf b i s).storeOut = s.storeOut := rfl
@[simp] theorem flagIf_choices (b : Bool) (i : PostItem) (s : State) :
    (flagIf b i s).choices = s.choices := rfl
@[simp] theorem flagIf_pending (b : Bool) (i : PostItem) (s : State) :
    (flagIf b i s).pending = s.pending := rfl

/-! ## flag -/

@[simp] theorem flag_wallTime (i : PostItem) (s : State) :
    (flag i s).wallTime = s.wallTime := rfl
@[simp] theorem flag_ponrst (i : PostItem) (s : State) :
    (flag i s).ponrst = s.ponrst := rfl
@[simp] theorem flag_irq (i : PostItem) (s : State) :
    (flag i s).irq = s.irq := rfl
@[simp] theorem flag_indicators (i : PostItem) (s : State) :
    (flag i s).indicators = s.indicators := rfl
@[simp] theorem flag_baseStrap (i : PostItem) (s : State) :
    (flag i s).baseStrap = s.baseStrap := rfl
@[simp] theorem flag_prioStrap (i : PostItem) (s : State) :
    (flag i s).prioStrap = s.prioStrap := rfl
@[simp] theorem flag_mode (i : PostItem) (s : State) :
    (flag i s).mode = s.mode := rfl
@[simp] theorem flag_shadow (i : PostItem) (s : State) :
    (flag i s).shadow = s.shadow := rfl
@[simp] theorem flag_owners (i : PostItem) (s : State) :
    (flag i s).owners = s.owners := rfl
@[simp] theorem flag_result (i : PostItem) (s : State) :
    (flag i s).result = s.result := rfl
@[simp] theorem flag_geometry (i : PostItem) (s : State) :
    (flag i s).geometry = s.geometry := rfl
@[simp] theorem flag_sync (i : PostItem) (s : State) :
    (flag i s).sync = s.sync := rfl
@[simp] theorem flag_apertures (i : PostItem) (s : State) :
    (flag i s).apertures = s.apertures := rfl
@[simp] theorem flag_cadence (i : PostItem) (s : State) :
    (flag i s).cadence = s.cadence := rfl
@[simp] theorem flag_overrun (i : PostItem) (s : State) :
    (flag i s).overrun = s.overrun := rfl
@[simp] theorem flag_active (i : PostItem) (s : State) :
    (flag i s).active = s.active := rfl
@[simp] theorem flag_next (i : PostItem) (s : State) :
    (flag i s).next = s.next := rfl
@[simp] theorem flag_epochCounter (i : PostItem) (s : State) :
    (flag i s).epochCounter = s.epochCounter := rfl
@[simp] theorem flag_selection (i : PostItem) (s : State) :
    (flag i s).selection = s.selection := rfl
@[simp] theorem flag_panelEpoch (i : PostItem) (s : State) :
    (flag i s).panelEpoch = s.panelEpoch := rfl
@[simp] theorem flag_gates (i : PostItem) (s : State) :
    (flag i s).gates = s.gates := rfl
@[simp] theorem flag_fillCount (i : PostItem) (s : State) :
    (flag i s).fillCount = s.fillCount := rfl
@[simp] theorem flag_queue (i : PostItem) (s : State) :
    (flag i s).queue = s.queue := rfl
@[simp] theorem flag_holds (i : PostItem) (s : State) :
    (flag i s).holds = s.holds := rfl
@[simp] theorem flag_passFifo (i : PostItem) (s : State) :
    (flag i s).passFifo = s.passFifo := rfl
@[simp] theorem flag_passWait (i : PostItem) (s : State) :
    (flag i s).passWait = s.passWait := rfl
@[simp] theorem flag_lastGranted (i : PostItem) (s : State) :
    (flag i s).lastGranted = s.lastGranted := rfl
@[simp] theorem flag_tags (i : PostItem) (s : State) :
    (flag i s).tags = s.tags := rfl
@[simp] theorem flag_exhaustion (i : PostItem) (s : State) :
    (flag i s).exhaustion = s.exhaustion := rfl
@[simp] theorem flag_commit (i : PostItem) (s : State) :
    (flag i s).commit = s.commit := rfl
@[simp] theorem flag_exposure (i : PostItem) (s : State) :
    (flag i s).exposure = s.exposure := rfl
@[simp] theorem flag_marking (i : PostItem) (s : State) :
    (flag i s).marking = s.marking := rfl
@[simp] theorem flag_channel0 (i : PostItem) (s : State) :
    (flag i s).channel0 = s.channel0 := rfl
@[simp] theorem flag_channel1 (i : PostItem) (s : State) :
    (flag i s).channel1 = s.channel1 := rfl
@[simp] theorem flag_poster (i : PostItem) (s : State) :
    (flag i s).poster = flaggedIf true i s.poster := rfl
@[simp] theorem flag_lines (i : PostItem) (s : State) :
    (flag i s).lines = s.lines := rfl
@[simp] theorem flag_ingestOut (i : PostItem) (s : State) :
    (flag i s).ingestOut = s.ingestOut := rfl
@[simp] theorem flag_storeOut (i : PostItem) (s : State) :
    (flag i s).storeOut = s.storeOut := rfl
@[simp] theorem flag_choices (i : PostItem) (s : State) :
    (flag i s).choices = s.choices := rfl
@[simp] theorem flag_pending (i : PostItem) (s : State) :
    (flag i s).pending = s.pending := rfl

/-! ## postEvent -/

@[simp] theorem postEvent_wallTime (e : Event) (s : State) :
    (postEvent e s).wallTime = s.wallTime := rfl
@[simp] theorem postEvent_ponrst (e : Event) (s : State) :
    (postEvent e s).ponrst = s.ponrst := rfl
@[simp] theorem postEvent_irq (e : Event) (s : State) :
    (postEvent e s).irq = s.irq := rfl
@[simp] theorem postEvent_indicators (e : Event) (s : State) :
    (postEvent e s).indicators = s.indicators := rfl
@[simp] theorem postEvent_baseStrap (e : Event) (s : State) :
    (postEvent e s).baseStrap = s.baseStrap := rfl
@[simp] theorem postEvent_prioStrap (e : Event) (s : State) :
    (postEvent e s).prioStrap = s.prioStrap := rfl
@[simp] theorem postEvent_mode (e : Event) (s : State) :
    (postEvent e s).mode = s.mode := rfl
@[simp] theorem postEvent_shadow (e : Event) (s : State) :
    (postEvent e s).shadow = s.shadow := rfl
@[simp] theorem postEvent_owners (e : Event) (s : State) :
    (postEvent e s).owners = s.owners := rfl
@[simp] theorem postEvent_result (e : Event) (s : State) :
    (postEvent e s).result = s.result := rfl
@[simp] theorem postEvent_geometry (e : Event) (s : State) :
    (postEvent e s).geometry = s.geometry := rfl
@[simp] theorem postEvent_sync (e : Event) (s : State) :
    (postEvent e s).sync = s.sync := rfl
@[simp] theorem postEvent_apertures (e : Event) (s : State) :
    (postEvent e s).apertures = s.apertures := rfl
@[simp] theorem postEvent_cadence (e : Event) (s : State) :
    (postEvent e s).cadence = s.cadence := rfl
@[simp] theorem postEvent_overrun (e : Event) (s : State) :
    (postEvent e s).overrun = s.overrun := rfl
@[simp] theorem postEvent_active (e : Event) (s : State) :
    (postEvent e s).active = s.active := rfl
@[simp] theorem postEvent_next (e : Event) (s : State) :
    (postEvent e s).next = s.next := rfl
@[simp] theorem postEvent_epochCounter (e : Event) (s : State) :
    (postEvent e s).epochCounter = s.epochCounter := rfl
@[simp] theorem postEvent_selection (e : Event) (s : State) :
    (postEvent e s).selection = s.selection := rfl
@[simp] theorem postEvent_panelEpoch (e : Event) (s : State) :
    (postEvent e s).panelEpoch = s.panelEpoch := rfl
@[simp] theorem postEvent_gates (e : Event) (s : State) :
    (postEvent e s).gates = s.gates := rfl
@[simp] theorem postEvent_fillCount (e : Event) (s : State) :
    (postEvent e s).fillCount = s.fillCount := rfl
@[simp] theorem postEvent_queue (e : Event) (s : State) :
    (postEvent e s).queue = s.queue := rfl
@[simp] theorem postEvent_holds (e : Event) (s : State) :
    (postEvent e s).holds = s.holds := rfl
@[simp] theorem postEvent_passFifo (e : Event) (s : State) :
    (postEvent e s).passFifo = s.passFifo := rfl
@[simp] theorem postEvent_passWait (e : Event) (s : State) :
    (postEvent e s).passWait = s.passWait := rfl
@[simp] theorem postEvent_lastGranted (e : Event) (s : State) :
    (postEvent e s).lastGranted = s.lastGranted := rfl
@[simp] theorem postEvent_tags (e : Event) (s : State) :
    (postEvent e s).tags = s.tags := rfl
@[simp] theorem postEvent_exhaustion (e : Event) (s : State) :
    (postEvent e s).exhaustion = s.exhaustion := rfl
@[simp] theorem postEvent_commit (e : Event) (s : State) :
    (postEvent e s).commit = s.commit := rfl
@[simp] theorem postEvent_exposure (e : Event) (s : State) :
    (postEvent e s).exposure = s.exposure := rfl
@[simp] theorem postEvent_marking (e : Event) (s : State) :
    (postEvent e s).marking = s.marking := rfl
@[simp] theorem postEvent_channel0 (e : Event) (s : State) :
    (postEvent e s).channel0 = s.channel0 := rfl
@[simp] theorem postEvent_channel1 (e : Event) (s : State) :
    (postEvent e s).channel1 = s.channel1 := rfl
@[simp] theorem postEvent_poster (e : Event) (s : State) :
    (postEvent e s).poster = handedOver s.shadow s.wallTime e s.poster := rfl
@[simp] theorem postEvent_lines (e : Event) (s : State) :
    (postEvent e s).lines = s.lines := rfl
@[simp] theorem postEvent_ingestOut (e : Event) (s : State) :
    (postEvent e s).ingestOut = s.ingestOut := rfl
@[simp] theorem postEvent_storeOut (e : Event) (s : State) :
    (postEvent e s).storeOut = s.storeOut := rfl
@[simp] theorem postEvent_choices (e : Event) (s : State) :
    (postEvent e s).choices = s.choices := rfl
@[simp] theorem postEvent_pending (e : Event) (s : State) :
    (postEvent e s).pending = s.pending := rfl

/-! ## updateIrq -/

@[simp] theorem updateIrq_wallTime (s : State) :
    (updateIrq s).wallTime = s.wallTime := rfl
@[simp] theorem updateIrq_ponrst (s : State) :
    (updateIrq s).ponrst = s.ponrst := rfl
@[simp] theorem updateIrq_irq (s : State) :
    (updateIrq s).irq = irqLevel s := rfl
@[simp] theorem updateIrq_indicators (s : State) :
    (updateIrq s).indicators = s.indicators := rfl
@[simp] theorem updateIrq_baseStrap (s : State) :
    (updateIrq s).baseStrap = s.baseStrap := rfl
@[simp] theorem updateIrq_prioStrap (s : State) :
    (updateIrq s).prioStrap = s.prioStrap := rfl
@[simp] theorem updateIrq_mode (s : State) :
    (updateIrq s).mode = s.mode := rfl
@[simp] theorem updateIrq_shadow (s : State) :
    (updateIrq s).shadow = s.shadow := rfl
@[simp] theorem updateIrq_owners (s : State) :
    (updateIrq s).owners = s.owners := rfl
@[simp] theorem updateIrq_result (s : State) :
    (updateIrq s).result = s.result := rfl
@[simp] theorem updateIrq_geometry (s : State) :
    (updateIrq s).geometry = s.geometry := rfl
@[simp] theorem updateIrq_sync (s : State) :
    (updateIrq s).sync = s.sync := rfl
@[simp] theorem updateIrq_apertures (s : State) :
    (updateIrq s).apertures = s.apertures := rfl
@[simp] theorem updateIrq_cadence (s : State) :
    (updateIrq s).cadence = s.cadence := rfl
@[simp] theorem updateIrq_overrun (s : State) :
    (updateIrq s).overrun = s.overrun := rfl
@[simp] theorem updateIrq_active (s : State) :
    (updateIrq s).active = s.active := rfl
@[simp] theorem updateIrq_next (s : State) :
    (updateIrq s).next = s.next := rfl
@[simp] theorem updateIrq_epochCounter (s : State) :
    (updateIrq s).epochCounter = s.epochCounter := rfl
@[simp] theorem updateIrq_selection (s : State) :
    (updateIrq s).selection = s.selection := rfl
@[simp] theorem updateIrq_panelEpoch (s : State) :
    (updateIrq s).panelEpoch = s.panelEpoch := rfl
@[simp] theorem updateIrq_gates (s : State) :
    (updateIrq s).gates = s.gates := rfl
@[simp] theorem updateIrq_fillCount (s : State) :
    (updateIrq s).fillCount = s.fillCount := rfl
@[simp] theorem updateIrq_queue (s : State) :
    (updateIrq s).queue = s.queue := rfl
@[simp] theorem updateIrq_holds (s : State) :
    (updateIrq s).holds = s.holds := rfl
@[simp] theorem updateIrq_passFifo (s : State) :
    (updateIrq s).passFifo = s.passFifo := rfl
@[simp] theorem updateIrq_passWait (s : State) :
    (updateIrq s).passWait = s.passWait := rfl
@[simp] theorem updateIrq_lastGranted (s : State) :
    (updateIrq s).lastGranted = s.lastGranted := rfl
@[simp] theorem updateIrq_tags (s : State) :
    (updateIrq s).tags = s.tags := rfl
@[simp] theorem updateIrq_exhaustion (s : State) :
    (updateIrq s).exhaustion = s.exhaustion := rfl
@[simp] theorem updateIrq_commit (s : State) :
    (updateIrq s).commit = s.commit := rfl
@[simp] theorem updateIrq_exposure (s : State) :
    (updateIrq s).exposure = s.exposure := rfl
@[simp] theorem updateIrq_marking (s : State) :
    (updateIrq s).marking = s.marking := rfl
@[simp] theorem updateIrq_channel0 (s : State) :
    (updateIrq s).channel0 = s.channel0 := rfl
@[simp] theorem updateIrq_channel1 (s : State) :
    (updateIrq s).channel1 = s.channel1 := rfl
@[simp] theorem updateIrq_poster (s : State) :
    (updateIrq s).poster = s.poster := rfl
@[simp] theorem updateIrq_lines (s : State) :
    (updateIrq s).lines = s.lines := rfl
@[simp] theorem updateIrq_ingestOut (s : State) :
    (updateIrq s).ingestOut = s.ingestOut := rfl
@[simp] theorem updateIrq_storeOut (s : State) :
    (updateIrq s).storeOut = s.storeOut := rfl
@[simp] theorem updateIrq_choices (s : State) :
    (updateIrq s).choices = s.choices := rfl
@[simp] theorem updateIrq_pending (s : State) :
    (updateIrq s).pending = s.pending := rfl

/-! ## setGate -/

@[simp] theorem setGate_wallTime (w : WindowId) (g : Gate) (s : State) :
    (setGate w g s).wallTime = s.wallTime := rfl
@[simp] theorem setGate_ponrst (w : WindowId) (g : Gate) (s : State) :
    (setGate w g s).ponrst = s.ponrst := rfl
@[simp] theorem setGate_irq (w : WindowId) (g : Gate) (s : State) :
    (setGate w g s).irq = s.irq := rfl
@[simp] theorem setGate_indicators (w : WindowId) (g : Gate) (s : State) :
    (setGate w g s).indicators = s.indicators := rfl
@[simp] theorem setGate_baseStrap (w : WindowId) (g : Gate) (s : State) :
    (setGate w g s).baseStrap = s.baseStrap := rfl
@[simp] theorem setGate_prioStrap (w : WindowId) (g : Gate) (s : State) :
    (setGate w g s).prioStrap = s.prioStrap := rfl
@[simp] theorem setGate_mode (w : WindowId) (g : Gate) (s : State) :
    (setGate w g s).mode = s.mode := rfl
@[simp] theorem setGate_shadow (w : WindowId) (g : Gate) (s : State) :
    (setGate w g s).shadow = s.shadow := rfl
@[simp] theorem setGate_owners (w : WindowId) (g : Gate) (s : State) :
    (setGate w g s).owners = s.owners := rfl
@[simp] theorem setGate_result (w : WindowId) (g : Gate) (s : State) :
    (setGate w g s).result = s.result := rfl
@[simp] theorem setGate_geometry (w : WindowId) (g : Gate) (s : State) :
    (setGate w g s).geometry = s.geometry := rfl
@[simp] theorem setGate_sync (w : WindowId) (g : Gate) (s : State) :
    (setGate w g s).sync = s.sync := rfl
@[simp] theorem setGate_apertures (w : WindowId) (g : Gate) (s : State) :
    (setGate w g s).apertures = s.apertures := rfl
@[simp] theorem setGate_cadence (w : WindowId) (g : Gate) (s : State) :
    (setGate w g s).cadence = s.cadence := rfl
@[simp] theorem setGate_overrun (w : WindowId) (g : Gate) (s : State) :
    (setGate w g s).overrun = s.overrun := rfl
@[simp] theorem setGate_active (w : WindowId) (g : Gate) (s : State) :
    (setGate w g s).active = s.active := rfl
@[simp] theorem setGate_next (w : WindowId) (g : Gate) (s : State) :
    (setGate w g s).next = s.next := rfl
@[simp] theorem setGate_epochCounter (w : WindowId) (g : Gate) (s : State) :
    (setGate w g s).epochCounter = s.epochCounter := rfl
@[simp] theorem setGate_selection (w : WindowId) (g : Gate) (s : State) :
    (setGate w g s).selection = s.selection := rfl
@[simp] theorem setGate_panelEpoch (w : WindowId) (g : Gate) (s : State) :
    (setGate w g s).panelEpoch = s.panelEpoch := rfl
@[simp] theorem setGate_gates (w : WindowId) (g : Gate) (s : State) :
    (setGate w g s).gates = put s.gates w g := rfl
@[simp] theorem setGate_fillCount (w : WindowId) (g : Gate) (s : State) :
    (setGate w g s).fillCount = s.fillCount := rfl
@[simp] theorem setGate_queue (w : WindowId) (g : Gate) (s : State) :
    (setGate w g s).queue = s.queue := rfl
@[simp] theorem setGate_holds (w : WindowId) (g : Gate) (s : State) :
    (setGate w g s).holds = s.holds := rfl
@[simp] theorem setGate_passFifo (w : WindowId) (g : Gate) (s : State) :
    (setGate w g s).passFifo = s.passFifo := rfl
@[simp] theorem setGate_passWait (w : WindowId) (g : Gate) (s : State) :
    (setGate w g s).passWait = s.passWait := rfl
@[simp] theorem setGate_lastGranted (w : WindowId) (g : Gate) (s : State) :
    (setGate w g s).lastGranted = s.lastGranted := rfl
@[simp] theorem setGate_tags (w : WindowId) (g : Gate) (s : State) :
    (setGate w g s).tags = s.tags := rfl
@[simp] theorem setGate_exhaustion (w : WindowId) (g : Gate) (s : State) :
    (setGate w g s).exhaustion = s.exhaustion := rfl
@[simp] theorem setGate_commit (w : WindowId) (g : Gate) (s : State) :
    (setGate w g s).commit = s.commit := rfl
@[simp] theorem setGate_exposure (w : WindowId) (g : Gate) (s : State) :
    (setGate w g s).exposure = s.exposure := rfl
@[simp] theorem setGate_marking (w : WindowId) (g : Gate) (s : State) :
    (setGate w g s).marking = s.marking := rfl
@[simp] theorem setGate_channel0 (w : WindowId) (g : Gate) (s : State) :
    (setGate w g s).channel0 = s.channel0 := rfl
@[simp] theorem setGate_channel1 (w : WindowId) (g : Gate) (s : State) :
    (setGate w g s).channel1 = s.channel1 := rfl
@[simp] theorem setGate_poster (w : WindowId) (g : Gate) (s : State) :
    (setGate w g s).poster = flaggedIf (s.gates[w] != g) (.image w) s.poster := rfl
@[simp] theorem setGate_lines (w : WindowId) (g : Gate) (s : State) :
    (setGate w g s).lines = s.lines := rfl
@[simp] theorem setGate_ingestOut (w : WindowId) (g : Gate) (s : State) :
    (setGate w g s).ingestOut = s.ingestOut := rfl
@[simp] theorem setGate_storeOut (w : WindowId) (g : Gate) (s : State) :
    (setGate w g s).storeOut = s.storeOut := rfl
@[simp] theorem setGate_choices (w : WindowId) (g : Gate) (s : State) :
    (setGate w g s).choices = s.choices := rfl
@[simp] theorem setGate_pending (w : WindowId) (g : Gate) (s : State) :
    (setGate w g s).pending = s.pending := rfl

/-! ## setCount -/

@[simp] theorem setCount_wallTime (w : WindowId) (n : Nat) (s : State) :
    (setCount w n s).wallTime = s.wallTime := rfl
@[simp] theorem setCount_ponrst (w : WindowId) (n : Nat) (s : State) :
    (setCount w n s).ponrst = s.ponrst := rfl
@[simp] theorem setCount_irq (w : WindowId) (n : Nat) (s : State) :
    (setCount w n s).irq = s.irq := rfl
@[simp] theorem setCount_indicators (w : WindowId) (n : Nat) (s : State) :
    (setCount w n s).indicators = s.indicators := rfl
@[simp] theorem setCount_baseStrap (w : WindowId) (n : Nat) (s : State) :
    (setCount w n s).baseStrap = s.baseStrap := rfl
@[simp] theorem setCount_prioStrap (w : WindowId) (n : Nat) (s : State) :
    (setCount w n s).prioStrap = s.prioStrap := rfl
@[simp] theorem setCount_mode (w : WindowId) (n : Nat) (s : State) :
    (setCount w n s).mode = s.mode := rfl
@[simp] theorem setCount_shadow (w : WindowId) (n : Nat) (s : State) :
    (setCount w n s).shadow = s.shadow := rfl
@[simp] theorem setCount_owners (w : WindowId) (n : Nat) (s : State) :
    (setCount w n s).owners = s.owners := rfl
@[simp] theorem setCount_result (w : WindowId) (n : Nat) (s : State) :
    (setCount w n s).result = s.result := rfl
@[simp] theorem setCount_geometry (w : WindowId) (n : Nat) (s : State) :
    (setCount w n s).geometry = s.geometry := rfl
@[simp] theorem setCount_sync (w : WindowId) (n : Nat) (s : State) :
    (setCount w n s).sync = s.sync := rfl
@[simp] theorem setCount_apertures (w : WindowId) (n : Nat) (s : State) :
    (setCount w n s).apertures = s.apertures := rfl
@[simp] theorem setCount_cadence (w : WindowId) (n : Nat) (s : State) :
    (setCount w n s).cadence = s.cadence := rfl
@[simp] theorem setCount_overrun (w : WindowId) (n : Nat) (s : State) :
    (setCount w n s).overrun = s.overrun := rfl
@[simp] theorem setCount_active (w : WindowId) (n : Nat) (s : State) :
    (setCount w n s).active = s.active := rfl
@[simp] theorem setCount_next (w : WindowId) (n : Nat) (s : State) :
    (setCount w n s).next = s.next := rfl
@[simp] theorem setCount_epochCounter (w : WindowId) (n : Nat) (s : State) :
    (setCount w n s).epochCounter = s.epochCounter := rfl
@[simp] theorem setCount_selection (w : WindowId) (n : Nat) (s : State) :
    (setCount w n s).selection = s.selection := rfl
@[simp] theorem setCount_panelEpoch (w : WindowId) (n : Nat) (s : State) :
    (setCount w n s).panelEpoch = s.panelEpoch := rfl
@[simp] theorem setCount_gates (w : WindowId) (n : Nat) (s : State) :
    (setCount w n s).gates = s.gates := rfl
@[simp] theorem setCount_fillCount (w : WindowId) (n : Nat) (s : State) :
    (setCount w n s).fillCount = put s.fillCount w n := rfl
@[simp] theorem setCount_queue (w : WindowId) (n : Nat) (s : State) :
    (setCount w n s).queue = s.queue := rfl
@[simp] theorem setCount_holds (w : WindowId) (n : Nat) (s : State) :
    (setCount w n s).holds = s.holds := rfl
@[simp] theorem setCount_passFifo (w : WindowId) (n : Nat) (s : State) :
    (setCount w n s).passFifo = s.passFifo := rfl
@[simp] theorem setCount_passWait (w : WindowId) (n : Nat) (s : State) :
    (setCount w n s).passWait = s.passWait := rfl
@[simp] theorem setCount_lastGranted (w : WindowId) (n : Nat) (s : State) :
    (setCount w n s).lastGranted = s.lastGranted := rfl
@[simp] theorem setCount_tags (w : WindowId) (n : Nat) (s : State) :
    (setCount w n s).tags = s.tags := rfl
@[simp] theorem setCount_exhaustion (w : WindowId) (n : Nat) (s : State) :
    (setCount w n s).exhaustion = s.exhaustion := rfl
@[simp] theorem setCount_commit (w : WindowId) (n : Nat) (s : State) :
    (setCount w n s).commit = s.commit := rfl
@[simp] theorem setCount_exposure (w : WindowId) (n : Nat) (s : State) :
    (setCount w n s).exposure = s.exposure := rfl
@[simp] theorem setCount_marking (w : WindowId) (n : Nat) (s : State) :
    (setCount w n s).marking = s.marking := rfl
@[simp] theorem setCount_channel0 (w : WindowId) (n : Nat) (s : State) :
    (setCount w n s).channel0 = s.channel0 := rfl
@[simp] theorem setCount_channel1 (w : WindowId) (n : Nat) (s : State) :
    (setCount w n s).channel1 = s.channel1 := rfl
@[simp] theorem setCount_poster (w : WindowId) (n : Nat) (s : State) :
    (setCount w n s).poster = flaggedIf (s.fillCount[w] != n) (.image w) s.poster := rfl
@[simp] theorem setCount_lines (w : WindowId) (n : Nat) (s : State) :
    (setCount w n s).lines = s.lines := rfl
@[simp] theorem setCount_ingestOut (w : WindowId) (n : Nat) (s : State) :
    (setCount w n s).ingestOut = s.ingestOut := rfl
@[simp] theorem setCount_storeOut (w : WindowId) (n : Nat) (s : State) :
    (setCount w n s).storeOut = s.storeOut := rfl
@[simp] theorem setCount_choices (w : WindowId) (n : Nat) (s : State) :
    (setCount w n s).choices = s.choices := rfl
@[simp] theorem setCount_pending (w : WindowId) (n : Nat) (s : State) :
    (setCount w n s).pending = s.pending := rfl

/-! ## setCadence -/

@[simp] theorem setCadence_wallTime (src : SourceId) (c : Cadence) (s : State) :
    (setCadence src c s).wallTime = s.wallTime := rfl
@[simp] theorem setCadence_ponrst (src : SourceId) (c : Cadence) (s : State) :
    (setCadence src c s).ponrst = s.ponrst := rfl
@[simp] theorem setCadence_irq (src : SourceId) (c : Cadence) (s : State) :
    (setCadence src c s).irq = s.irq := rfl
@[simp] theorem setCadence_indicators (src : SourceId) (c : Cadence) (s : State) :
    (setCadence src c s).indicators = s.indicators := rfl
@[simp] theorem setCadence_baseStrap (src : SourceId) (c : Cadence) (s : State) :
    (setCadence src c s).baseStrap = s.baseStrap := rfl
@[simp] theorem setCadence_prioStrap (src : SourceId) (c : Cadence) (s : State) :
    (setCadence src c s).prioStrap = s.prioStrap := rfl
@[simp] theorem setCadence_mode (src : SourceId) (c : Cadence) (s : State) :
    (setCadence src c s).mode = s.mode := rfl
@[simp] theorem setCadence_shadow (src : SourceId) (c : Cadence) (s : State) :
    (setCadence src c s).shadow = s.shadow := rfl
@[simp] theorem setCadence_owners (src : SourceId) (c : Cadence) (s : State) :
    (setCadence src c s).owners = s.owners := rfl
@[simp] theorem setCadence_result (src : SourceId) (c : Cadence) (s : State) :
    (setCadence src c s).result = s.result := rfl
@[simp] theorem setCadence_geometry (src : SourceId) (c : Cadence) (s : State) :
    (setCadence src c s).geometry = s.geometry := rfl
@[simp] theorem setCadence_sync (src : SourceId) (c : Cadence) (s : State) :
    (setCadence src c s).sync = s.sync := rfl
@[simp] theorem setCadence_apertures (src : SourceId) (c : Cadence) (s : State) :
    (setCadence src c s).apertures = s.apertures := rfl
@[simp] theorem setCadence_cadence (src : SourceId) (c : Cadence) (s : State) :
    (setCadence src c s).cadence = put s.cadence src c := rfl
@[simp] theorem setCadence_overrun (src : SourceId) (c : Cadence) (s : State) :
    (setCadence src c s).overrun = s.overrun := rfl
@[simp] theorem setCadence_active (src : SourceId) (c : Cadence) (s : State) :
    (setCadence src c s).active = s.active := rfl
@[simp] theorem setCadence_next (src : SourceId) (c : Cadence) (s : State) :
    (setCadence src c s).next = s.next := rfl
@[simp] theorem setCadence_epochCounter (src : SourceId) (c : Cadence) (s : State) :
    (setCadence src c s).epochCounter = s.epochCounter := rfl
@[simp] theorem setCadence_selection (src : SourceId) (c : Cadence) (s : State) :
    (setCadence src c s).selection = s.selection := rfl
@[simp] theorem setCadence_panelEpoch (src : SourceId) (c : Cadence) (s : State) :
    (setCadence src c s).panelEpoch = s.panelEpoch := rfl
@[simp] theorem setCadence_gates (src : SourceId) (c : Cadence) (s : State) :
    (setCadence src c s).gates = s.gates := rfl
@[simp] theorem setCadence_fillCount (src : SourceId) (c : Cadence) (s : State) :
    (setCadence src c s).fillCount = s.fillCount := rfl
@[simp] theorem setCadence_queue (src : SourceId) (c : Cadence) (s : State) :
    (setCadence src c s).queue = s.queue := rfl
@[simp] theorem setCadence_holds (src : SourceId) (c : Cadence) (s : State) :
    (setCadence src c s).holds = s.holds := rfl
@[simp] theorem setCadence_passFifo (src : SourceId) (c : Cadence) (s : State) :
    (setCadence src c s).passFifo = s.passFifo := rfl
@[simp] theorem setCadence_passWait (src : SourceId) (c : Cadence) (s : State) :
    (setCadence src c s).passWait = s.passWait := rfl
@[simp] theorem setCadence_lastGranted (src : SourceId) (c : Cadence) (s : State) :
    (setCadence src c s).lastGranted = s.lastGranted := rfl
@[simp] theorem setCadence_tags (src : SourceId) (c : Cadence) (s : State) :
    (setCadence src c s).tags = s.tags := rfl
@[simp] theorem setCadence_exhaustion (src : SourceId) (c : Cadence) (s : State) :
    (setCadence src c s).exhaustion = s.exhaustion := rfl
@[simp] theorem setCadence_commit (src : SourceId) (c : Cadence) (s : State) :
    (setCadence src c s).commit = s.commit := rfl
@[simp] theorem setCadence_exposure (src : SourceId) (c : Cadence) (s : State) :
    (setCadence src c s).exposure = s.exposure := rfl
@[simp] theorem setCadence_marking (src : SourceId) (c : Cadence) (s : State) :
    (setCadence src c s).marking = s.marking := rfl
@[simp] theorem setCadence_channel0 (src : SourceId) (c : Cadence) (s : State) :
    (setCadence src c s).channel0 = s.channel0 := rfl
@[simp] theorem setCadence_channel1 (src : SourceId) (c : Cadence) (s : State) :
    (setCadence src c s).channel1 = s.channel1 := rfl
@[simp] theorem setCadence_poster (src : SourceId) (c : Cadence) (s : State) :
    (setCadence src c s).poster = flaggedIf (s.cadence[src].state != c.state || s.cadence[src].baseline != c.baseline) (.source src) s.poster := rfl
@[simp] theorem setCadence_lines (src : SourceId) (c : Cadence) (s : State) :
    (setCadence src c s).lines = s.lines := rfl
@[simp] theorem setCadence_ingestOut (src : SourceId) (c : Cadence) (s : State) :
    (setCadence src c s).ingestOut = s.ingestOut := rfl
@[simp] theorem setCadence_storeOut (src : SourceId) (c : Cadence) (s : State) :
    (setCadence src c s).storeOut = s.storeOut := rfl
@[simp] theorem setCadence_choices (src : SourceId) (c : Cadence) (s : State) :
    (setCadence src c s).choices = s.choices := rfl
@[simp] theorem setCadence_pending (src : SourceId) (c : Cadence) (s : State) :
    (setCadence src c s).pending = s.pending := rfl

/-! ## setAperture -/

@[simp] theorem setAperture_wallTime (src : SourceId) (a : Option Aperture) (s : State) :
    (setAperture src a s).wallTime = s.wallTime := rfl
@[simp] theorem setAperture_ponrst (src : SourceId) (a : Option Aperture) (s : State) :
    (setAperture src a s).ponrst = s.ponrst := rfl
@[simp] theorem setAperture_irq (src : SourceId) (a : Option Aperture) (s : State) :
    (setAperture src a s).irq = s.irq := rfl
@[simp] theorem setAperture_indicators (src : SourceId) (a : Option Aperture) (s : State) :
    (setAperture src a s).indicators = s.indicators := rfl
@[simp] theorem setAperture_baseStrap (src : SourceId) (a : Option Aperture) (s : State) :
    (setAperture src a s).baseStrap = s.baseStrap := rfl
@[simp] theorem setAperture_prioStrap (src : SourceId) (a : Option Aperture) (s : State) :
    (setAperture src a s).prioStrap = s.prioStrap := rfl
@[simp] theorem setAperture_mode (src : SourceId) (a : Option Aperture) (s : State) :
    (setAperture src a s).mode = s.mode := rfl
@[simp] theorem setAperture_shadow (src : SourceId) (a : Option Aperture) (s : State) :
    (setAperture src a s).shadow = s.shadow := rfl
@[simp] theorem setAperture_owners (src : SourceId) (a : Option Aperture) (s : State) :
    (setAperture src a s).owners = s.owners := rfl
@[simp] theorem setAperture_result (src : SourceId) (a : Option Aperture) (s : State) :
    (setAperture src a s).result = s.result := rfl
@[simp] theorem setAperture_geometry (src : SourceId) (a : Option Aperture) (s : State) :
    (setAperture src a s).geometry = s.geometry := rfl
@[simp] theorem setAperture_sync (src : SourceId) (a : Option Aperture) (s : State) :
    (setAperture src a s).sync = s.sync := rfl
@[simp] theorem setAperture_apertures (src : SourceId) (a : Option Aperture) (s : State) :
    (setAperture src a s).apertures = put s.apertures src a := rfl
@[simp] theorem setAperture_cadence (src : SourceId) (a : Option Aperture) (s : State) :
    (setAperture src a s).cadence = s.cadence := rfl
@[simp] theorem setAperture_overrun (src : SourceId) (a : Option Aperture) (s : State) :
    (setAperture src a s).overrun = s.overrun := rfl
@[simp] theorem setAperture_active (src : SourceId) (a : Option Aperture) (s : State) :
    (setAperture src a s).active = s.active := rfl
@[simp] theorem setAperture_next (src : SourceId) (a : Option Aperture) (s : State) :
    (setAperture src a s).next = s.next := rfl
@[simp] theorem setAperture_epochCounter (src : SourceId) (a : Option Aperture) (s : State) :
    (setAperture src a s).epochCounter = s.epochCounter := rfl
@[simp] theorem setAperture_selection (src : SourceId) (a : Option Aperture) (s : State) :
    (setAperture src a s).selection = s.selection := rfl
@[simp] theorem setAperture_panelEpoch (src : SourceId) (a : Option Aperture) (s : State) :
    (setAperture src a s).panelEpoch = s.panelEpoch := rfl
@[simp] theorem setAperture_gates (src : SourceId) (a : Option Aperture) (s : State) :
    (setAperture src a s).gates = s.gates := rfl
@[simp] theorem setAperture_fillCount (src : SourceId) (a : Option Aperture) (s : State) :
    (setAperture src a s).fillCount = s.fillCount := rfl
@[simp] theorem setAperture_queue (src : SourceId) (a : Option Aperture) (s : State) :
    (setAperture src a s).queue = s.queue := rfl
@[simp] theorem setAperture_holds (src : SourceId) (a : Option Aperture) (s : State) :
    (setAperture src a s).holds = s.holds := rfl
@[simp] theorem setAperture_passFifo (src : SourceId) (a : Option Aperture) (s : State) :
    (setAperture src a s).passFifo = s.passFifo := rfl
@[simp] theorem setAperture_passWait (src : SourceId) (a : Option Aperture) (s : State) :
    (setAperture src a s).passWait = s.passWait := rfl
@[simp] theorem setAperture_lastGranted (src : SourceId) (a : Option Aperture) (s : State) :
    (setAperture src a s).lastGranted = s.lastGranted := rfl
@[simp] theorem setAperture_tags (src : SourceId) (a : Option Aperture) (s : State) :
    (setAperture src a s).tags = s.tags := rfl
@[simp] theorem setAperture_exhaustion (src : SourceId) (a : Option Aperture) (s : State) :
    (setAperture src a s).exhaustion = s.exhaustion := rfl
@[simp] theorem setAperture_commit (src : SourceId) (a : Option Aperture) (s : State) :
    (setAperture src a s).commit = s.commit := rfl
@[simp] theorem setAperture_exposure (src : SourceId) (a : Option Aperture) (s : State) :
    (setAperture src a s).exposure = s.exposure := rfl
@[simp] theorem setAperture_marking (src : SourceId) (a : Option Aperture) (s : State) :
    (setAperture src a s).marking = s.marking := rfl
@[simp] theorem setAperture_channel0 (src : SourceId) (a : Option Aperture) (s : State) :
    (setAperture src a s).channel0 = s.channel0 := rfl
@[simp] theorem setAperture_channel1 (src : SourceId) (a : Option Aperture) (s : State) :
    (setAperture src a s).channel1 = s.channel1 := rfl
@[simp] theorem setAperture_poster (src : SourceId) (a : Option Aperture) (s : State) :
    (setAperture src a s).poster = flaggedIf true (.source src) s.poster := rfl
@[simp] theorem setAperture_lines (src : SourceId) (a : Option Aperture) (s : State) :
    (setAperture src a s).lines = s.lines := rfl
@[simp] theorem setAperture_ingestOut (src : SourceId) (a : Option Aperture) (s : State) :
    (setAperture src a s).ingestOut = s.ingestOut := rfl
@[simp] theorem setAperture_storeOut (src : SourceId) (a : Option Aperture) (s : State) :
    (setAperture src a s).storeOut = s.storeOut := rfl
@[simp] theorem setAperture_choices (src : SourceId) (a : Option Aperture) (s : State) :
    (setAperture src a s).choices = s.choices := rfl
@[simp] theorem setAperture_pending (src : SourceId) (a : Option Aperture) (s : State) :
    (setAperture src a s).pending = s.pending := rfl

/-! ## setSync -/

@[simp] theorem setSync_wallTime (p : PanelId) (r : SyncRecord) (s : State) :
    (setSync p r s).wallTime = s.wallTime := rfl
@[simp] theorem setSync_ponrst (p : PanelId) (r : SyncRecord) (s : State) :
    (setSync p r s).ponrst = s.ponrst := rfl
@[simp] theorem setSync_irq (p : PanelId) (r : SyncRecord) (s : State) :
    (setSync p r s).irq = s.irq := rfl
@[simp] theorem setSync_indicators (p : PanelId) (r : SyncRecord) (s : State) :
    (setSync p r s).indicators = s.indicators := rfl
@[simp] theorem setSync_baseStrap (p : PanelId) (r : SyncRecord) (s : State) :
    (setSync p r s).baseStrap = s.baseStrap := rfl
@[simp] theorem setSync_prioStrap (p : PanelId) (r : SyncRecord) (s : State) :
    (setSync p r s).prioStrap = s.prioStrap := rfl
@[simp] theorem setSync_mode (p : PanelId) (r : SyncRecord) (s : State) :
    (setSync p r s).mode = s.mode := rfl
@[simp] theorem setSync_shadow (p : PanelId) (r : SyncRecord) (s : State) :
    (setSync p r s).shadow = s.shadow := rfl
@[simp] theorem setSync_owners (p : PanelId) (r : SyncRecord) (s : State) :
    (setSync p r s).owners = s.owners := rfl
@[simp] theorem setSync_result (p : PanelId) (r : SyncRecord) (s : State) :
    (setSync p r s).result = s.result := rfl
@[simp] theorem setSync_geometry (p : PanelId) (r : SyncRecord) (s : State) :
    (setSync p r s).geometry = s.geometry := rfl
@[simp] theorem setSync_sync (p : PanelId) (r : SyncRecord) (s : State) :
    (setSync p r s).sync = put s.sync p r := rfl
@[simp] theorem setSync_apertures (p : PanelId) (r : SyncRecord) (s : State) :
    (setSync p r s).apertures = s.apertures := rfl
@[simp] theorem setSync_cadence (p : PanelId) (r : SyncRecord) (s : State) :
    (setSync p r s).cadence = s.cadence := rfl
@[simp] theorem setSync_overrun (p : PanelId) (r : SyncRecord) (s : State) :
    (setSync p r s).overrun = s.overrun := rfl
@[simp] theorem setSync_active (p : PanelId) (r : SyncRecord) (s : State) :
    (setSync p r s).active = s.active := rfl
@[simp] theorem setSync_next (p : PanelId) (r : SyncRecord) (s : State) :
    (setSync p r s).next = s.next := rfl
@[simp] theorem setSync_epochCounter (p : PanelId) (r : SyncRecord) (s : State) :
    (setSync p r s).epochCounter = s.epochCounter := rfl
@[simp] theorem setSync_selection (p : PanelId) (r : SyncRecord) (s : State) :
    (setSync p r s).selection = s.selection := rfl
@[simp] theorem setSync_panelEpoch (p : PanelId) (r : SyncRecord) (s : State) :
    (setSync p r s).panelEpoch = s.panelEpoch := rfl
@[simp] theorem setSync_gates (p : PanelId) (r : SyncRecord) (s : State) :
    (setSync p r s).gates = s.gates := rfl
@[simp] theorem setSync_fillCount (p : PanelId) (r : SyncRecord) (s : State) :
    (setSync p r s).fillCount = s.fillCount := rfl
@[simp] theorem setSync_queue (p : PanelId) (r : SyncRecord) (s : State) :
    (setSync p r s).queue = s.queue := rfl
@[simp] theorem setSync_holds (p : PanelId) (r : SyncRecord) (s : State) :
    (setSync p r s).holds = s.holds := rfl
@[simp] theorem setSync_passFifo (p : PanelId) (r : SyncRecord) (s : State) :
    (setSync p r s).passFifo = s.passFifo := rfl
@[simp] theorem setSync_passWait (p : PanelId) (r : SyncRecord) (s : State) :
    (setSync p r s).passWait = s.passWait := rfl
@[simp] theorem setSync_lastGranted (p : PanelId) (r : SyncRecord) (s : State) :
    (setSync p r s).lastGranted = s.lastGranted := rfl
@[simp] theorem setSync_tags (p : PanelId) (r : SyncRecord) (s : State) :
    (setSync p r s).tags = s.tags := rfl
@[simp] theorem setSync_exhaustion (p : PanelId) (r : SyncRecord) (s : State) :
    (setSync p r s).exhaustion = s.exhaustion := rfl
@[simp] theorem setSync_commit (p : PanelId) (r : SyncRecord) (s : State) :
    (setSync p r s).commit = s.commit := rfl
@[simp] theorem setSync_exposure (p : PanelId) (r : SyncRecord) (s : State) :
    (setSync p r s).exposure = s.exposure := rfl
@[simp] theorem setSync_marking (p : PanelId) (r : SyncRecord) (s : State) :
    (setSync p r s).marking = s.marking := rfl
@[simp] theorem setSync_channel0 (p : PanelId) (r : SyncRecord) (s : State) :
    (setSync p r s).channel0 = s.channel0 := rfl
@[simp] theorem setSync_channel1 (p : PanelId) (r : SyncRecord) (s : State) :
    (setSync p r s).channel1 = s.channel1 := rfl
@[simp] theorem setSync_poster (p : PanelId) (r : SyncRecord) (s : State) :
    (setSync p r s).poster = flaggedIf (s.sync[p].state != r.state) (.panel p) s.poster := rfl
@[simp] theorem setSync_lines (p : PanelId) (r : SyncRecord) (s : State) :
    (setSync p r s).lines = s.lines := rfl
@[simp] theorem setSync_ingestOut (p : PanelId) (r : SyncRecord) (s : State) :
    (setSync p r s).ingestOut = s.ingestOut := rfl
@[simp] theorem setSync_storeOut (p : PanelId) (r : SyncRecord) (s : State) :
    (setSync p r s).storeOut = s.storeOut := rfl
@[simp] theorem setSync_choices (p : PanelId) (r : SyncRecord) (s : State) :
    (setSync p r s).choices = s.choices := rfl
@[simp] theorem setSync_pending (p : PanelId) (r : SyncRecord) (s : State) :
    (setSync p r s).pending = s.pending := rfl

/-! ## setPanelLayout -/

@[simp] theorem setPanelLayout_wallTime (p : PanelId) (c : Copy) (e : Half) (s : State) :
    (setPanelLayout p c e s).wallTime = s.wallTime := rfl
@[simp] theorem setPanelLayout_ponrst (p : PanelId) (c : Copy) (e : Half) (s : State) :
    (setPanelLayout p c e s).ponrst = s.ponrst := rfl
@[simp] theorem setPanelLayout_irq (p : PanelId) (c : Copy) (e : Half) (s : State) :
    (setPanelLayout p c e s).irq = s.irq := rfl
@[simp] theorem setPanelLayout_indicators (p : PanelId) (c : Copy) (e : Half) (s : State) :
    (setPanelLayout p c e s).indicators = s.indicators := rfl
@[simp] theorem setPanelLayout_baseStrap (p : PanelId) (c : Copy) (e : Half) (s : State) :
    (setPanelLayout p c e s).baseStrap = s.baseStrap := rfl
@[simp] theorem setPanelLayout_prioStrap (p : PanelId) (c : Copy) (e : Half) (s : State) :
    (setPanelLayout p c e s).prioStrap = s.prioStrap := rfl
@[simp] theorem setPanelLayout_mode (p : PanelId) (c : Copy) (e : Half) (s : State) :
    (setPanelLayout p c e s).mode = s.mode := rfl
@[simp] theorem setPanelLayout_shadow (p : PanelId) (c : Copy) (e : Half) (s : State) :
    (setPanelLayout p c e s).shadow = s.shadow := rfl
@[simp] theorem setPanelLayout_owners (p : PanelId) (c : Copy) (e : Half) (s : State) :
    (setPanelLayout p c e s).owners = s.owners := rfl
@[simp] theorem setPanelLayout_result (p : PanelId) (c : Copy) (e : Half) (s : State) :
    (setPanelLayout p c e s).result = s.result := rfl
@[simp] theorem setPanelLayout_geometry (p : PanelId) (c : Copy) (e : Half) (s : State) :
    (setPanelLayout p c e s).geometry = s.geometry := rfl
@[simp] theorem setPanelLayout_sync (p : PanelId) (c : Copy) (e : Half) (s : State) :
    (setPanelLayout p c e s).sync = s.sync := rfl
@[simp] theorem setPanelLayout_apertures (p : PanelId) (c : Copy) (e : Half) (s : State) :
    (setPanelLayout p c e s).apertures = s.apertures := rfl
@[simp] theorem setPanelLayout_cadence (p : PanelId) (c : Copy) (e : Half) (s : State) :
    (setPanelLayout p c e s).cadence = s.cadence := rfl
@[simp] theorem setPanelLayout_overrun (p : PanelId) (c : Copy) (e : Half) (s : State) :
    (setPanelLayout p c e s).overrun = s.overrun := rfl
@[simp] theorem setPanelLayout_active (p : PanelId) (c : Copy) (e : Half) (s : State) :
    (setPanelLayout p c e s).active = s.active := rfl
@[simp] theorem setPanelLayout_next (p : PanelId) (c : Copy) (e : Half) (s : State) :
    (setPanelLayout p c e s).next = s.next := rfl
@[simp] theorem setPanelLayout_epochCounter (p : PanelId) (c : Copy) (e : Half) (s : State) :
    (setPanelLayout p c e s).epochCounter = s.epochCounter := rfl
@[simp] theorem setPanelLayout_selection (p : PanelId) (c : Copy) (e : Half) (s : State) :
    (setPanelLayout p c e s).selection = put s.selection p c := rfl
@[simp] theorem setPanelLayout_panelEpoch (p : PanelId) (c : Copy) (e : Half) (s : State) :
    (setPanelLayout p c e s).panelEpoch = put s.panelEpoch p e := rfl
@[simp] theorem setPanelLayout_gates (p : PanelId) (c : Copy) (e : Half) (s : State) :
    (setPanelLayout p c e s).gates = s.gates := rfl
@[simp] theorem setPanelLayout_fillCount (p : PanelId) (c : Copy) (e : Half) (s : State) :
    (setPanelLayout p c e s).fillCount = s.fillCount := rfl
@[simp] theorem setPanelLayout_queue (p : PanelId) (c : Copy) (e : Half) (s : State) :
    (setPanelLayout p c e s).queue = s.queue := rfl
@[simp] theorem setPanelLayout_holds (p : PanelId) (c : Copy) (e : Half) (s : State) :
    (setPanelLayout p c e s).holds = s.holds := rfl
@[simp] theorem setPanelLayout_passFifo (p : PanelId) (c : Copy) (e : Half) (s : State) :
    (setPanelLayout p c e s).passFifo = s.passFifo := rfl
@[simp] theorem setPanelLayout_passWait (p : PanelId) (c : Copy) (e : Half) (s : State) :
    (setPanelLayout p c e s).passWait = s.passWait := rfl
@[simp] theorem setPanelLayout_lastGranted (p : PanelId) (c : Copy) (e : Half) (s : State) :
    (setPanelLayout p c e s).lastGranted = s.lastGranted := rfl
@[simp] theorem setPanelLayout_tags (p : PanelId) (c : Copy) (e : Half) (s : State) :
    (setPanelLayout p c e s).tags = s.tags := rfl
@[simp] theorem setPanelLayout_exhaustion (p : PanelId) (c : Copy) (e : Half) (s : State) :
    (setPanelLayout p c e s).exhaustion = s.exhaustion := rfl
@[simp] theorem setPanelLayout_commit (p : PanelId) (c : Copy) (e : Half) (s : State) :
    (setPanelLayout p c e s).commit = s.commit := rfl
@[simp] theorem setPanelLayout_exposure (p : PanelId) (c : Copy) (e : Half) (s : State) :
    (setPanelLayout p c e s).exposure = s.exposure := rfl
@[simp] theorem setPanelLayout_marking (p : PanelId) (c : Copy) (e : Half) (s : State) :
    (setPanelLayout p c e s).marking = s.marking := rfl
@[simp] theorem setPanelLayout_channel0 (p : PanelId) (c : Copy) (e : Half) (s : State) :
    (setPanelLayout p c e s).channel0 = s.channel0 := rfl
@[simp] theorem setPanelLayout_channel1 (p : PanelId) (c : Copy) (e : Half) (s : State) :
    (setPanelLayout p c e s).channel1 = s.channel1 := rfl
@[simp] theorem setPanelLayout_poster (p : PanelId) (c : Copy) (e : Half) (s : State) :
    (setPanelLayout p c e s).poster = flaggedIf (s.selection[p] != c || s.panelEpoch[p] != e) (.panel p) s.poster := rfl
@[simp] theorem setPanelLayout_lines (p : PanelId) (c : Copy) (e : Half) (s : State) :
    (setPanelLayout p c e s).lines = s.lines := rfl
@[simp] theorem setPanelLayout_ingestOut (p : PanelId) (c : Copy) (e : Half) (s : State) :
    (setPanelLayout p c e s).ingestOut = s.ingestOut := rfl
@[simp] theorem setPanelLayout_storeOut (p : PanelId) (c : Copy) (e : Half) (s : State) :
    (setPanelLayout p c e s).storeOut = s.storeOut := rfl
@[simp] theorem setPanelLayout_choices (p : PanelId) (c : Copy) (e : Half) (s : State) :
    (setPanelLayout p c e s).choices = s.choices := rfl
@[simp] theorem setPanelLayout_pending (p : PanelId) (c : Copy) (e : Half) (s : State) :
    (setPanelLayout p c e s).pending = s.pending := rfl

/-! ## setOwner -/

@[simp] theorem setOwner_wallTime (w : WindowId) (o : Owner) (s : State) :
    (setOwner w o s).wallTime = s.wallTime := rfl
@[simp] theorem setOwner_ponrst (w : WindowId) (o : Owner) (s : State) :
    (setOwner w o s).ponrst = s.ponrst := rfl
@[simp] theorem setOwner_irq (w : WindowId) (o : Owner) (s : State) :
    (setOwner w o s).irq = s.irq := rfl
@[simp] theorem setOwner_indicators (w : WindowId) (o : Owner) (s : State) :
    (setOwner w o s).indicators = s.indicators := rfl
@[simp] theorem setOwner_baseStrap (w : WindowId) (o : Owner) (s : State) :
    (setOwner w o s).baseStrap = s.baseStrap := rfl
@[simp] theorem setOwner_prioStrap (w : WindowId) (o : Owner) (s : State) :
    (setOwner w o s).prioStrap = s.prioStrap := rfl
@[simp] theorem setOwner_mode (w : WindowId) (o : Owner) (s : State) :
    (setOwner w o s).mode = s.mode := rfl
@[simp] theorem setOwner_shadow (w : WindowId) (o : Owner) (s : State) :
    (setOwner w o s).shadow = s.shadow := rfl
@[simp] theorem setOwner_owners (w : WindowId) (o : Owner) (s : State) :
    (setOwner w o s).owners = put s.owners w o := rfl
@[simp] theorem setOwner_result (w : WindowId) (o : Owner) (s : State) :
    (setOwner w o s).result = s.result := rfl
@[simp] theorem setOwner_geometry (w : WindowId) (o : Owner) (s : State) :
    (setOwner w o s).geometry = s.geometry := rfl
@[simp] theorem setOwner_sync (w : WindowId) (o : Owner) (s : State) :
    (setOwner w o s).sync = s.sync := rfl
@[simp] theorem setOwner_apertures (w : WindowId) (o : Owner) (s : State) :
    (setOwner w o s).apertures = s.apertures := rfl
@[simp] theorem setOwner_cadence (w : WindowId) (o : Owner) (s : State) :
    (setOwner w o s).cadence = s.cadence := rfl
@[simp] theorem setOwner_overrun (w : WindowId) (o : Owner) (s : State) :
    (setOwner w o s).overrun = s.overrun := rfl
@[simp] theorem setOwner_active (w : WindowId) (o : Owner) (s : State) :
    (setOwner w o s).active = s.active := rfl
@[simp] theorem setOwner_next (w : WindowId) (o : Owner) (s : State) :
    (setOwner w o s).next = s.next := rfl
@[simp] theorem setOwner_epochCounter (w : WindowId) (o : Owner) (s : State) :
    (setOwner w o s).epochCounter = s.epochCounter := rfl
@[simp] theorem setOwner_selection (w : WindowId) (o : Owner) (s : State) :
    (setOwner w o s).selection = s.selection := rfl
@[simp] theorem setOwner_panelEpoch (w : WindowId) (o : Owner) (s : State) :
    (setOwner w o s).panelEpoch = s.panelEpoch := rfl
@[simp] theorem setOwner_gates (w : WindowId) (o : Owner) (s : State) :
    (setOwner w o s).gates = s.gates := rfl
@[simp] theorem setOwner_fillCount (w : WindowId) (o : Owner) (s : State) :
    (setOwner w o s).fillCount = s.fillCount := rfl
@[simp] theorem setOwner_queue (w : WindowId) (o : Owner) (s : State) :
    (setOwner w o s).queue = s.queue := rfl
@[simp] theorem setOwner_holds (w : WindowId) (o : Owner) (s : State) :
    (setOwner w o s).holds = s.holds := rfl
@[simp] theorem setOwner_passFifo (w : WindowId) (o : Owner) (s : State) :
    (setOwner w o s).passFifo = s.passFifo := rfl
@[simp] theorem setOwner_passWait (w : WindowId) (o : Owner) (s : State) :
    (setOwner w o s).passWait = s.passWait := rfl
@[simp] theorem setOwner_lastGranted (w : WindowId) (o : Owner) (s : State) :
    (setOwner w o s).lastGranted = s.lastGranted := rfl
@[simp] theorem setOwner_tags (w : WindowId) (o : Owner) (s : State) :
    (setOwner w o s).tags = s.tags := rfl
@[simp] theorem setOwner_exhaustion (w : WindowId) (o : Owner) (s : State) :
    (setOwner w o s).exhaustion = s.exhaustion := rfl
@[simp] theorem setOwner_commit (w : WindowId) (o : Owner) (s : State) :
    (setOwner w o s).commit = s.commit := rfl
@[simp] theorem setOwner_exposure (w : WindowId) (o : Owner) (s : State) :
    (setOwner w o s).exposure = s.exposure := rfl
@[simp] theorem setOwner_marking (w : WindowId) (o : Owner) (s : State) :
    (setOwner w o s).marking = s.marking := rfl
@[simp] theorem setOwner_channel0 (w : WindowId) (o : Owner) (s : State) :
    (setOwner w o s).channel0 = s.channel0 := rfl
@[simp] theorem setOwner_channel1 (w : WindowId) (o : Owner) (s : State) :
    (setOwner w o s).channel1 = s.channel1 := rfl
@[simp] theorem setOwner_poster (w : WindowId) (o : Owner) (s : State) :
    (setOwner w o s).poster = flaggedIf (s.owners[w] != o) (.owner w) s.poster := rfl
@[simp] theorem setOwner_lines (w : WindowId) (o : Owner) (s : State) :
    (setOwner w o s).lines = s.lines := rfl
@[simp] theorem setOwner_ingestOut (w : WindowId) (o : Owner) (s : State) :
    (setOwner w o s).ingestOut = s.ingestOut := rfl
@[simp] theorem setOwner_storeOut (w : WindowId) (o : Owner) (s : State) :
    (setOwner w o s).storeOut = s.storeOut := rfl
@[simp] theorem setOwner_choices (w : WindowId) (o : Owner) (s : State) :
    (setOwner w o s).choices = s.choices := rfl
@[simp] theorem setOwner_pending (w : WindowId) (o : Owner) (s : State) :
    (setOwner w o s).pending = s.pending := rfl

/-! ## setCommit -/

@[simp] theorem setCommit_wallTime (c : Commit) (s : State) :
    (setCommit c s).wallTime = s.wallTime := rfl
@[simp] theorem setCommit_ponrst (c : Commit) (s : State) :
    (setCommit c s).ponrst = s.ponrst := rfl
@[simp] theorem setCommit_irq (c : Commit) (s : State) :
    (setCommit c s).irq = s.irq := rfl
@[simp] theorem setCommit_indicators (c : Commit) (s : State) :
    (setCommit c s).indicators = s.indicators := rfl
@[simp] theorem setCommit_baseStrap (c : Commit) (s : State) :
    (setCommit c s).baseStrap = s.baseStrap := rfl
@[simp] theorem setCommit_prioStrap (c : Commit) (s : State) :
    (setCommit c s).prioStrap = s.prioStrap := rfl
@[simp] theorem setCommit_mode (c : Commit) (s : State) :
    (setCommit c s).mode = s.mode := rfl
@[simp] theorem setCommit_shadow (c : Commit) (s : State) :
    (setCommit c s).shadow = s.shadow := rfl
@[simp] theorem setCommit_owners (c : Commit) (s : State) :
    (setCommit c s).owners = s.owners := rfl
@[simp] theorem setCommit_result (c : Commit) (s : State) :
    (setCommit c s).result = s.result := rfl
@[simp] theorem setCommit_geometry (c : Commit) (s : State) :
    (setCommit c s).geometry = s.geometry := rfl
@[simp] theorem setCommit_sync (c : Commit) (s : State) :
    (setCommit c s).sync = s.sync := rfl
@[simp] theorem setCommit_apertures (c : Commit) (s : State) :
    (setCommit c s).apertures = s.apertures := rfl
@[simp] theorem setCommit_cadence (c : Commit) (s : State) :
    (setCommit c s).cadence = s.cadence := rfl
@[simp] theorem setCommit_overrun (c : Commit) (s : State) :
    (setCommit c s).overrun = s.overrun := rfl
@[simp] theorem setCommit_active (c : Commit) (s : State) :
    (setCommit c s).active = s.active := rfl
@[simp] theorem setCommit_next (c : Commit) (s : State) :
    (setCommit c s).next = s.next := rfl
@[simp] theorem setCommit_epochCounter (c : Commit) (s : State) :
    (setCommit c s).epochCounter = s.epochCounter := rfl
@[simp] theorem setCommit_selection (c : Commit) (s : State) :
    (setCommit c s).selection = s.selection := rfl
@[simp] theorem setCommit_panelEpoch (c : Commit) (s : State) :
    (setCommit c s).panelEpoch = s.panelEpoch := rfl
@[simp] theorem setCommit_gates (c : Commit) (s : State) :
    (setCommit c s).gates = s.gates := rfl
@[simp] theorem setCommit_fillCount (c : Commit) (s : State) :
    (setCommit c s).fillCount = s.fillCount := rfl
@[simp] theorem setCommit_queue (c : Commit) (s : State) :
    (setCommit c s).queue = s.queue := rfl
@[simp] theorem setCommit_holds (c : Commit) (s : State) :
    (setCommit c s).holds = s.holds := rfl
@[simp] theorem setCommit_passFifo (c : Commit) (s : State) :
    (setCommit c s).passFifo = s.passFifo := rfl
@[simp] theorem setCommit_passWait (c : Commit) (s : State) :
    (setCommit c s).passWait = s.passWait := rfl
@[simp] theorem setCommit_lastGranted (c : Commit) (s : State) :
    (setCommit c s).lastGranted = s.lastGranted := rfl
@[simp] theorem setCommit_tags (c : Commit) (s : State) :
    (setCommit c s).tags = s.tags := rfl
@[simp] theorem setCommit_exhaustion (c : Commit) (s : State) :
    (setCommit c s).exhaustion = s.exhaustion := rfl
@[simp] theorem setCommit_commit (c : Commit) (s : State) :
    (setCommit c s).commit = c := rfl
@[simp] theorem setCommit_exposure (c : Commit) (s : State) :
    (setCommit c s).exposure = s.exposure := rfl
@[simp] theorem setCommit_marking (c : Commit) (s : State) :
    (setCommit c s).marking = s.marking := rfl
@[simp] theorem setCommit_channel0 (c : Commit) (s : State) :
    (setCommit c s).channel0 = s.channel0 := rfl
@[simp] theorem setCommit_channel1 (c : Commit) (s : State) :
    (setCommit c s).channel1 = s.channel1 := rfl
@[simp] theorem setCommit_poster (c : Commit) (s : State) :
    (setCommit c s).poster = flaggedIf (s.commit.state != c.state || s.commit.number != c.number || s.commit.remaining != c.remaining || s.commit.refusal != c.refusal) .commit s.poster := rfl
@[simp] theorem setCommit_lines (c : Commit) (s : State) :
    (setCommit c s).lines = s.lines := rfl
@[simp] theorem setCommit_ingestOut (c : Commit) (s : State) :
    (setCommit c s).ingestOut = s.ingestOut := rfl
@[simp] theorem setCommit_storeOut (c : Commit) (s : State) :
    (setCommit c s).storeOut = s.storeOut := rfl
@[simp] theorem setCommit_choices (c : Commit) (s : State) :
    (setCommit c s).choices = s.choices := rfl
@[simp] theorem setCommit_pending (c : Commit) (s : State) :
    (setCommit c s).pending = s.pending := rfl

/-! ## setResult -/

@[simp] theorem setResult_wallTime (r : CommandResult) (s : State) :
    (setResult r s).wallTime = s.wallTime := rfl
@[simp] theorem setResult_ponrst (r : CommandResult) (s : State) :
    (setResult r s).ponrst = s.ponrst := rfl
@[simp] theorem setResult_irq (r : CommandResult) (s : State) :
    (setResult r s).irq = s.irq := rfl
@[simp] theorem setResult_indicators (r : CommandResult) (s : State) :
    (setResult r s).indicators = s.indicators := rfl
@[simp] theorem setResult_baseStrap (r : CommandResult) (s : State) :
    (setResult r s).baseStrap = s.baseStrap := rfl
@[simp] theorem setResult_prioStrap (r : CommandResult) (s : State) :
    (setResult r s).prioStrap = s.prioStrap := rfl
@[simp] theorem setResult_mode (r : CommandResult) (s : State) :
    (setResult r s).mode = s.mode := rfl
@[simp] theorem setResult_shadow (r : CommandResult) (s : State) :
    (setResult r s).shadow = s.shadow := rfl
@[simp] theorem setResult_owners (r : CommandResult) (s : State) :
    (setResult r s).owners = s.owners := rfl
@[simp] theorem setResult_result (r : CommandResult) (s : State) :
    (setResult r s).result = r := rfl
@[simp] theorem setResult_geometry (r : CommandResult) (s : State) :
    (setResult r s).geometry = s.geometry := rfl
@[simp] theorem setResult_sync (r : CommandResult) (s : State) :
    (setResult r s).sync = s.sync := rfl
@[simp] theorem setResult_apertures (r : CommandResult) (s : State) :
    (setResult r s).apertures = s.apertures := rfl
@[simp] theorem setResult_cadence (r : CommandResult) (s : State) :
    (setResult r s).cadence = s.cadence := rfl
@[simp] theorem setResult_overrun (r : CommandResult) (s : State) :
    (setResult r s).overrun = s.overrun := rfl
@[simp] theorem setResult_active (r : CommandResult) (s : State) :
    (setResult r s).active = s.active := rfl
@[simp] theorem setResult_next (r : CommandResult) (s : State) :
    (setResult r s).next = s.next := rfl
@[simp] theorem setResult_epochCounter (r : CommandResult) (s : State) :
    (setResult r s).epochCounter = s.epochCounter := rfl
@[simp] theorem setResult_selection (r : CommandResult) (s : State) :
    (setResult r s).selection = s.selection := rfl
@[simp] theorem setResult_panelEpoch (r : CommandResult) (s : State) :
    (setResult r s).panelEpoch = s.panelEpoch := rfl
@[simp] theorem setResult_gates (r : CommandResult) (s : State) :
    (setResult r s).gates = s.gates := rfl
@[simp] theorem setResult_fillCount (r : CommandResult) (s : State) :
    (setResult r s).fillCount = s.fillCount := rfl
@[simp] theorem setResult_queue (r : CommandResult) (s : State) :
    (setResult r s).queue = s.queue := rfl
@[simp] theorem setResult_holds (r : CommandResult) (s : State) :
    (setResult r s).holds = s.holds := rfl
@[simp] theorem setResult_passFifo (r : CommandResult) (s : State) :
    (setResult r s).passFifo = s.passFifo := rfl
@[simp] theorem setResult_passWait (r : CommandResult) (s : State) :
    (setResult r s).passWait = s.passWait := rfl
@[simp] theorem setResult_lastGranted (r : CommandResult) (s : State) :
    (setResult r s).lastGranted = s.lastGranted := rfl
@[simp] theorem setResult_tags (r : CommandResult) (s : State) :
    (setResult r s).tags = s.tags := rfl
@[simp] theorem setResult_exhaustion (r : CommandResult) (s : State) :
    (setResult r s).exhaustion = s.exhaustion := rfl
@[simp] theorem setResult_commit (r : CommandResult) (s : State) :
    (setResult r s).commit = s.commit := rfl
@[simp] theorem setResult_exposure (r : CommandResult) (s : State) :
    (setResult r s).exposure = s.exposure := rfl
@[simp] theorem setResult_marking (r : CommandResult) (s : State) :
    (setResult r s).marking = s.marking := rfl
@[simp] theorem setResult_channel0 (r : CommandResult) (s : State) :
    (setResult r s).channel0 = s.channel0 := rfl
@[simp] theorem setResult_channel1 (r : CommandResult) (s : State) :
    (setResult r s).channel1 = s.channel1 := rfl
@[simp] theorem setResult_poster (r : CommandResult) (s : State) :
    (setResult r s).poster = flaggedIf true .result s.poster := rfl
@[simp] theorem setResult_lines (r : CommandResult) (s : State) :
    (setResult r s).lines = s.lines := rfl
@[simp] theorem setResult_ingestOut (r : CommandResult) (s : State) :
    (setResult r s).ingestOut = s.ingestOut := rfl
@[simp] theorem setResult_storeOut (r : CommandResult) (s : State) :
    (setResult r s).storeOut = s.storeOut := rfl
@[simp] theorem setResult_choices (r : CommandResult) (s : State) :
    (setResult r s).choices = s.choices := rfl
@[simp] theorem setResult_pending (r : CommandResult) (s : State) :
    (setResult r s).pending = s.pending := rfl

/-! ## setMode -/

@[simp] theorem setMode_wallTime (m : Mode) (s : State) :
    (setMode m s).wallTime = s.wallTime := rfl
@[simp] theorem setMode_ponrst (m : Mode) (s : State) :
    (setMode m s).ponrst = s.ponrst := rfl
@[simp] theorem setMode_irq (m : Mode) (s : State) :
    (setMode m s).irq = s.irq := rfl
@[simp] theorem setMode_indicators (m : Mode) (s : State) :
    (setMode m s).indicators = s.indicators := rfl
@[simp] theorem setMode_baseStrap (m : Mode) (s : State) :
    (setMode m s).baseStrap = s.baseStrap := rfl
@[simp] theorem setMode_prioStrap (m : Mode) (s : State) :
    (setMode m s).prioStrap = s.prioStrap := rfl
@[simp] theorem setMode_mode (m : Mode) (s : State) :
    (setMode m s).mode = m := rfl
@[simp] theorem setMode_shadow (m : Mode) (s : State) :
    (setMode m s).shadow = s.shadow := rfl
@[simp] theorem setMode_owners (m : Mode) (s : State) :
    (setMode m s).owners = s.owners := rfl
@[simp] theorem setMode_result (m : Mode) (s : State) :
    (setMode m s).result = s.result := rfl
@[simp] theorem setMode_geometry (m : Mode) (s : State) :
    (setMode m s).geometry = s.geometry := rfl
@[simp] theorem setMode_sync (m : Mode) (s : State) :
    (setMode m s).sync = s.sync := rfl
@[simp] theorem setMode_apertures (m : Mode) (s : State) :
    (setMode m s).apertures = s.apertures := rfl
@[simp] theorem setMode_cadence (m : Mode) (s : State) :
    (setMode m s).cadence = s.cadence := rfl
@[simp] theorem setMode_overrun (m : Mode) (s : State) :
    (setMode m s).overrun = s.overrun := rfl
@[simp] theorem setMode_active (m : Mode) (s : State) :
    (setMode m s).active = s.active := rfl
@[simp] theorem setMode_next (m : Mode) (s : State) :
    (setMode m s).next = s.next := rfl
@[simp] theorem setMode_epochCounter (m : Mode) (s : State) :
    (setMode m s).epochCounter = s.epochCounter := rfl
@[simp] theorem setMode_selection (m : Mode) (s : State) :
    (setMode m s).selection = s.selection := rfl
@[simp] theorem setMode_panelEpoch (m : Mode) (s : State) :
    (setMode m s).panelEpoch = s.panelEpoch := rfl
@[simp] theorem setMode_gates (m : Mode) (s : State) :
    (setMode m s).gates = s.gates := rfl
@[simp] theorem setMode_fillCount (m : Mode) (s : State) :
    (setMode m s).fillCount = s.fillCount := rfl
@[simp] theorem setMode_queue (m : Mode) (s : State) :
    (setMode m s).queue = s.queue := rfl
@[simp] theorem setMode_holds (m : Mode) (s : State) :
    (setMode m s).holds = s.holds := rfl
@[simp] theorem setMode_passFifo (m : Mode) (s : State) :
    (setMode m s).passFifo = s.passFifo := rfl
@[simp] theorem setMode_passWait (m : Mode) (s : State) :
    (setMode m s).passWait = s.passWait := rfl
@[simp] theorem setMode_lastGranted (m : Mode) (s : State) :
    (setMode m s).lastGranted = s.lastGranted := rfl
@[simp] theorem setMode_tags (m : Mode) (s : State) :
    (setMode m s).tags = s.tags := rfl
@[simp] theorem setMode_exhaustion (m : Mode) (s : State) :
    (setMode m s).exhaustion = s.exhaustion := rfl
@[simp] theorem setMode_commit (m : Mode) (s : State) :
    (setMode m s).commit = s.commit := rfl
@[simp] theorem setMode_exposure (m : Mode) (s : State) :
    (setMode m s).exposure = s.exposure := rfl
@[simp] theorem setMode_marking (m : Mode) (s : State) :
    (setMode m s).marking = s.marking := rfl
@[simp] theorem setMode_channel0 (m : Mode) (s : State) :
    (setMode m s).channel0 = s.channel0 := rfl
@[simp] theorem setMode_channel1 (m : Mode) (s : State) :
    (setMode m s).channel1 = s.channel1 := rfl
@[simp] theorem setMode_poster (m : Mode) (s : State) :
    (setMode m s).poster = flaggedIf true .mode s.poster := rfl
@[simp] theorem setMode_lines (m : Mode) (s : State) :
    (setMode m s).lines = s.lines := rfl
@[simp] theorem setMode_ingestOut (m : Mode) (s : State) :
    (setMode m s).ingestOut = s.ingestOut := rfl
@[simp] theorem setMode_storeOut (m : Mode) (s : State) :
    (setMode m s).storeOut = s.storeOut := rfl
@[simp] theorem setMode_choices (m : Mode) (s : State) :
    (setMode m s).choices = s.choices := rfl
@[simp] theorem setMode_pending (m : Mode) (s : State) :
    (setMode m s).pending = s.pending := rfl

/-! ## setQueue -/

@[simp] theorem setQueue_wallTime (q : List Record) (s : State) :
    (setQueue q s).wallTime = s.wallTime := rfl
@[simp] theorem setQueue_ponrst (q : List Record) (s : State) :
    (setQueue q s).ponrst = s.ponrst := rfl
@[simp] theorem setQueue_irq (q : List Record) (s : State) :
    (setQueue q s).irq = s.irq := rfl
@[simp] theorem setQueue_indicators (q : List Record) (s : State) :
    (setQueue q s).indicators = s.indicators := rfl
@[simp] theorem setQueue_baseStrap (q : List Record) (s : State) :
    (setQueue q s).baseStrap = s.baseStrap := rfl
@[simp] theorem setQueue_prioStrap (q : List Record) (s : State) :
    (setQueue q s).prioStrap = s.prioStrap := rfl
@[simp] theorem setQueue_mode (q : List Record) (s : State) :
    (setQueue q s).mode = s.mode := rfl
@[simp] theorem setQueue_shadow (q : List Record) (s : State) :
    (setQueue q s).shadow = s.shadow := rfl
@[simp] theorem setQueue_owners (q : List Record) (s : State) :
    (setQueue q s).owners = s.owners := rfl
@[simp] theorem setQueue_result (q : List Record) (s : State) :
    (setQueue q s).result = s.result := rfl
@[simp] theorem setQueue_geometry (q : List Record) (s : State) :
    (setQueue q s).geometry = s.geometry := rfl
@[simp] theorem setQueue_sync (q : List Record) (s : State) :
    (setQueue q s).sync = s.sync := rfl
@[simp] theorem setQueue_apertures (q : List Record) (s : State) :
    (setQueue q s).apertures = s.apertures := rfl
@[simp] theorem setQueue_cadence (q : List Record) (s : State) :
    (setQueue q s).cadence = s.cadence := rfl
@[simp] theorem setQueue_overrun (q : List Record) (s : State) :
    (setQueue q s).overrun = s.overrun := rfl
@[simp] theorem setQueue_active (q : List Record) (s : State) :
    (setQueue q s).active = s.active := rfl
@[simp] theorem setQueue_next (q : List Record) (s : State) :
    (setQueue q s).next = s.next := rfl
@[simp] theorem setQueue_epochCounter (q : List Record) (s : State) :
    (setQueue q s).epochCounter = s.epochCounter := rfl
@[simp] theorem setQueue_selection (q : List Record) (s : State) :
    (setQueue q s).selection = s.selection := rfl
@[simp] theorem setQueue_panelEpoch (q : List Record) (s : State) :
    (setQueue q s).panelEpoch = s.panelEpoch := rfl
@[simp] theorem setQueue_gates (q : List Record) (s : State) :
    (setQueue q s).gates = s.gates := rfl
@[simp] theorem setQueue_fillCount (q : List Record) (s : State) :
    (setQueue q s).fillCount = s.fillCount := rfl
@[simp] theorem setQueue_queue (q : List Record) (s : State) :
    (setQueue q s).queue = q := rfl
@[simp] theorem setQueue_holds (q : List Record) (s : State) :
    (setQueue q s).holds = s.holds := rfl
@[simp] theorem setQueue_passFifo (q : List Record) (s : State) :
    (setQueue q s).passFifo = s.passFifo := rfl
@[simp] theorem setQueue_passWait (q : List Record) (s : State) :
    (setQueue q s).passWait = s.passWait := rfl
@[simp] theorem setQueue_lastGranted (q : List Record) (s : State) :
    (setQueue q s).lastGranted = s.lastGranted := rfl
@[simp] theorem setQueue_tags (q : List Record) (s : State) :
    (setQueue q s).tags = s.tags := rfl
@[simp] theorem setQueue_exhaustion (q : List Record) (s : State) :
    (setQueue q s).exhaustion = s.exhaustion := rfl
@[simp] theorem setQueue_commit (q : List Record) (s : State) :
    (setQueue q s).commit = s.commit := rfl
@[simp] theorem setQueue_exposure (q : List Record) (s : State) :
    (setQueue q s).exposure = s.exposure := rfl
@[simp] theorem setQueue_marking (q : List Record) (s : State) :
    (setQueue q s).marking = s.marking := rfl
@[simp] theorem setQueue_channel0 (q : List Record) (s : State) :
    (setQueue q s).channel0 = s.channel0 := rfl
@[simp] theorem setQueue_channel1 (q : List Record) (s : State) :
    (setQueue q s).channel1 = s.channel1 := rfl
@[simp] theorem setQueue_poster (q : List Record) (s : State) :
    (setQueue q s).poster = flaggedIf true .occupancy s.poster := rfl
@[simp] theorem setQueue_lines (q : List Record) (s : State) :
    (setQueue q s).lines = s.lines := rfl
@[simp] theorem setQueue_ingestOut (q : List Record) (s : State) :
    (setQueue q s).ingestOut = s.ingestOut := rfl
@[simp] theorem setQueue_storeOut (q : List Record) (s : State) :
    (setQueue q s).storeOut = s.storeOut := rfl
@[simp] theorem setQueue_choices (q : List Record) (s : State) :
    (setQueue q s).choices = s.choices := rfl
@[simp] theorem setQueue_pending (q : List Record) (s : State) :
    (setQueue q s).pending = s.pending := rfl

/-! ## setChannel -/

@[simp] theorem setChannel_wallTime (c : ChannelId) (ch : Channel) (s : State) :
    (setChannel c ch s).wallTime = s.wallTime := rfl
@[simp] theorem setChannel_ponrst (c : ChannelId) (ch : Channel) (s : State) :
    (setChannel c ch s).ponrst = s.ponrst := rfl
@[simp] theorem setChannel_irq (c : ChannelId) (ch : Channel) (s : State) :
    (setChannel c ch s).irq = s.irq := rfl
@[simp] theorem setChannel_indicators (c : ChannelId) (ch : Channel) (s : State) :
    (setChannel c ch s).indicators = s.indicators := rfl
@[simp] theorem setChannel_baseStrap (c : ChannelId) (ch : Channel) (s : State) :
    (setChannel c ch s).baseStrap = s.baseStrap := rfl
@[simp] theorem setChannel_prioStrap (c : ChannelId) (ch : Channel) (s : State) :
    (setChannel c ch s).prioStrap = s.prioStrap := rfl
@[simp] theorem setChannel_mode (c : ChannelId) (ch : Channel) (s : State) :
    (setChannel c ch s).mode = s.mode := rfl
@[simp] theorem setChannel_shadow (c : ChannelId) (ch : Channel) (s : State) :
    (setChannel c ch s).shadow = s.shadow := rfl
@[simp] theorem setChannel_owners (c : ChannelId) (ch : Channel) (s : State) :
    (setChannel c ch s).owners = s.owners := rfl
@[simp] theorem setChannel_result (c : ChannelId) (ch : Channel) (s : State) :
    (setChannel c ch s).result = s.result := rfl
@[simp] theorem setChannel_geometry (c : ChannelId) (ch : Channel) (s : State) :
    (setChannel c ch s).geometry = s.geometry := rfl
@[simp] theorem setChannel_sync (c : ChannelId) (ch : Channel) (s : State) :
    (setChannel c ch s).sync = s.sync := rfl
@[simp] theorem setChannel_apertures (c : ChannelId) (ch : Channel) (s : State) :
    (setChannel c ch s).apertures = s.apertures := rfl
@[simp] theorem setChannel_cadence (c : ChannelId) (ch : Channel) (s : State) :
    (setChannel c ch s).cadence = s.cadence := rfl
@[simp] theorem setChannel_overrun (c : ChannelId) (ch : Channel) (s : State) :
    (setChannel c ch s).overrun = s.overrun := rfl
@[simp] theorem setChannel_active (c : ChannelId) (ch : Channel) (s : State) :
    (setChannel c ch s).active = s.active := rfl
@[simp] theorem setChannel_next (c : ChannelId) (ch : Channel) (s : State) :
    (setChannel c ch s).next = s.next := rfl
@[simp] theorem setChannel_epochCounter (c : ChannelId) (ch : Channel) (s : State) :
    (setChannel c ch s).epochCounter = s.epochCounter := rfl
@[simp] theorem setChannel_selection (c : ChannelId) (ch : Channel) (s : State) :
    (setChannel c ch s).selection = s.selection := rfl
@[simp] theorem setChannel_panelEpoch (c : ChannelId) (ch : Channel) (s : State) :
    (setChannel c ch s).panelEpoch = s.panelEpoch := rfl
@[simp] theorem setChannel_gates (c : ChannelId) (ch : Channel) (s : State) :
    (setChannel c ch s).gates = s.gates := rfl
@[simp] theorem setChannel_fillCount (c : ChannelId) (ch : Channel) (s : State) :
    (setChannel c ch s).fillCount = s.fillCount := rfl
@[simp] theorem setChannel_queue (c : ChannelId) (ch : Channel) (s : State) :
    (setChannel c ch s).queue = s.queue := rfl
@[simp] theorem setChannel_holds (c : ChannelId) (ch : Channel) (s : State) :
    (setChannel c ch s).holds = s.holds := rfl
@[simp] theorem setChannel_passFifo (c : ChannelId) (ch : Channel) (s : State) :
    (setChannel c ch s).passFifo = s.passFifo := rfl
@[simp] theorem setChannel_passWait (c : ChannelId) (ch : Channel) (s : State) :
    (setChannel c ch s).passWait = s.passWait := rfl
@[simp] theorem setChannel_lastGranted (c : ChannelId) (ch : Channel) (s : State) :
    (setChannel c ch s).lastGranted = s.lastGranted := rfl
@[simp] theorem setChannel_tags (c : ChannelId) (ch : Channel) (s : State) :
    (setChannel c ch s).tags = s.tags := rfl
@[simp] theorem setChannel_exhaustion (c : ChannelId) (ch : Channel) (s : State) :
    (setChannel c ch s).exhaustion = s.exhaustion := rfl
@[simp] theorem setChannel_commit (c : ChannelId) (ch : Channel) (s : State) :
    (setChannel c ch s).commit = s.commit := rfl
@[simp] theorem setChannel_exposure (c : ChannelId) (ch : Channel) (s : State) :
    (setChannel c ch s).exposure = s.exposure := rfl
@[simp] theorem setChannel_marking (c : ChannelId) (ch : Channel) (s : State) :
    (setChannel c ch s).marking = s.marking := rfl
@[simp] theorem setChannel_lines (c : ChannelId) (ch : Channel) (s : State) :
    (setChannel c ch s).lines = s.lines := rfl
@[simp] theorem setChannel_ingestOut (c : ChannelId) (ch : Channel) (s : State) :
    (setChannel c ch s).ingestOut = s.ingestOut := rfl
@[simp] theorem setChannel_storeOut (c : ChannelId) (ch : Channel) (s : State) :
    (setChannel c ch s).storeOut = s.storeOut := rfl
@[simp] theorem setChannel_choices (c : ChannelId) (ch : Channel) (s : State) :
    (setChannel c ch s).choices = s.choices := rfl
@[simp] theorem setChannel_pending (c : ChannelId) (ch : Channel) (s : State) :
    (setChannel c ch s).pending = s.pending := rfl

/-! ## setTag -/

@[simp] theorem setTag_wallTime (t : Tag) (e : TagState) (s : State) :
    (setTag t e s).wallTime = s.wallTime := rfl
@[simp] theorem setTag_ponrst (t : Tag) (e : TagState) (s : State) :
    (setTag t e s).ponrst = s.ponrst := rfl
@[simp] theorem setTag_irq (t : Tag) (e : TagState) (s : State) :
    (setTag t e s).irq = s.irq := rfl
@[simp] theorem setTag_indicators (t : Tag) (e : TagState) (s : State) :
    (setTag t e s).indicators = s.indicators := rfl
@[simp] theorem setTag_baseStrap (t : Tag) (e : TagState) (s : State) :
    (setTag t e s).baseStrap = s.baseStrap := rfl
@[simp] theorem setTag_prioStrap (t : Tag) (e : TagState) (s : State) :
    (setTag t e s).prioStrap = s.prioStrap := rfl
@[simp] theorem setTag_mode (t : Tag) (e : TagState) (s : State) :
    (setTag t e s).mode = s.mode := rfl
@[simp] theorem setTag_shadow (t : Tag) (e : TagState) (s : State) :
    (setTag t e s).shadow = s.shadow := rfl
@[simp] theorem setTag_owners (t : Tag) (e : TagState) (s : State) :
    (setTag t e s).owners = s.owners := rfl
@[simp] theorem setTag_result (t : Tag) (e : TagState) (s : State) :
    (setTag t e s).result = s.result := rfl
@[simp] theorem setTag_geometry (t : Tag) (e : TagState) (s : State) :
    (setTag t e s).geometry = s.geometry := rfl
@[simp] theorem setTag_sync (t : Tag) (e : TagState) (s : State) :
    (setTag t e s).sync = s.sync := rfl
@[simp] theorem setTag_apertures (t : Tag) (e : TagState) (s : State) :
    (setTag t e s).apertures = s.apertures := rfl
@[simp] theorem setTag_cadence (t : Tag) (e : TagState) (s : State) :
    (setTag t e s).cadence = s.cadence := rfl
@[simp] theorem setTag_overrun (t : Tag) (e : TagState) (s : State) :
    (setTag t e s).overrun = s.overrun := rfl
@[simp] theorem setTag_active (t : Tag) (e : TagState) (s : State) :
    (setTag t e s).active = s.active := rfl
@[simp] theorem setTag_next (t : Tag) (e : TagState) (s : State) :
    (setTag t e s).next = s.next := rfl
@[simp] theorem setTag_epochCounter (t : Tag) (e : TagState) (s : State) :
    (setTag t e s).epochCounter = s.epochCounter := rfl
@[simp] theorem setTag_selection (t : Tag) (e : TagState) (s : State) :
    (setTag t e s).selection = s.selection := rfl
@[simp] theorem setTag_panelEpoch (t : Tag) (e : TagState) (s : State) :
    (setTag t e s).panelEpoch = s.panelEpoch := rfl
@[simp] theorem setTag_gates (t : Tag) (e : TagState) (s : State) :
    (setTag t e s).gates = s.gates := rfl
@[simp] theorem setTag_fillCount (t : Tag) (e : TagState) (s : State) :
    (setTag t e s).fillCount = s.fillCount := rfl
@[simp] theorem setTag_queue (t : Tag) (e : TagState) (s : State) :
    (setTag t e s).queue = s.queue := rfl
@[simp] theorem setTag_holds (t : Tag) (e : TagState) (s : State) :
    (setTag t e s).holds = s.holds := rfl
@[simp] theorem setTag_passFifo (t : Tag) (e : TagState) (s : State) :
    (setTag t e s).passFifo = s.passFifo := rfl
@[simp] theorem setTag_passWait (t : Tag) (e : TagState) (s : State) :
    (setTag t e s).passWait = s.passWait := rfl
@[simp] theorem setTag_lastGranted (t : Tag) (e : TagState) (s : State) :
    (setTag t e s).lastGranted = s.lastGranted := rfl
@[simp] theorem setTag_tags (t : Tag) (e : TagState) (s : State) :
    (setTag t e s).tags = put s.tags t e := rfl
@[simp] theorem setTag_exhaustion (t : Tag) (e : TagState) (s : State) :
    (setTag t e s).exhaustion = s.exhaustion := rfl
@[simp] theorem setTag_commit (t : Tag) (e : TagState) (s : State) :
    (setTag t e s).commit = s.commit := rfl
@[simp] theorem setTag_exposure (t : Tag) (e : TagState) (s : State) :
    (setTag t e s).exposure = s.exposure := rfl
@[simp] theorem setTag_marking (t : Tag) (e : TagState) (s : State) :
    (setTag t e s).marking = s.marking := rfl
@[simp] theorem setTag_channel0 (t : Tag) (e : TagState) (s : State) :
    (setTag t e s).channel0 = s.channel0 := rfl
@[simp] theorem setTag_channel1 (t : Tag) (e : TagState) (s : State) :
    (setTag t e s).channel1 = s.channel1 := rfl
@[simp] theorem setTag_poster (t : Tag) (e : TagState) (s : State) :
    (setTag t e s).poster = s.poster := rfl
@[simp] theorem setTag_lines (t : Tag) (e : TagState) (s : State) :
    (setTag t e s).lines = s.lines := rfl
@[simp] theorem setTag_ingestOut (t : Tag) (e : TagState) (s : State) :
    (setTag t e s).ingestOut = s.ingestOut := rfl
@[simp] theorem setTag_storeOut (t : Tag) (e : TagState) (s : State) :
    (setTag t e s).storeOut = s.storeOut := rfl
@[simp] theorem setTag_choices (t : Tag) (e : TagState) (s : State) :
    (setTag t e s).choices = s.choices := rfl
@[simp] theorem setTag_pending (t : Tag) (e : TagState) (s : State) :
    (setTag t e s).pending = s.pending := rfl

/-! ## issueOwn -/

@[simp] theorem issueOwn_wallTime (t : Tag) (o : OwnWrite) (x : Txn) (s : State) :
    (issueOwn t o x s).wallTime = s.wallTime := rfl
@[simp] theorem issueOwn_ponrst (t : Tag) (o : OwnWrite) (x : Txn) (s : State) :
    (issueOwn t o x s).ponrst = s.ponrst := rfl
@[simp] theorem issueOwn_irq (t : Tag) (o : OwnWrite) (x : Txn) (s : State) :
    (issueOwn t o x s).irq = s.irq := rfl
@[simp] theorem issueOwn_indicators (t : Tag) (o : OwnWrite) (x : Txn) (s : State) :
    (issueOwn t o x s).indicators = s.indicators := rfl
@[simp] theorem issueOwn_baseStrap (t : Tag) (o : OwnWrite) (x : Txn) (s : State) :
    (issueOwn t o x s).baseStrap = s.baseStrap := rfl
@[simp] theorem issueOwn_prioStrap (t : Tag) (o : OwnWrite) (x : Txn) (s : State) :
    (issueOwn t o x s).prioStrap = s.prioStrap := rfl
@[simp] theorem issueOwn_mode (t : Tag) (o : OwnWrite) (x : Txn) (s : State) :
    (issueOwn t o x s).mode = s.mode := rfl
@[simp] theorem issueOwn_shadow (t : Tag) (o : OwnWrite) (x : Txn) (s : State) :
    (issueOwn t o x s).shadow = s.shadow := rfl
@[simp] theorem issueOwn_owners (t : Tag) (o : OwnWrite) (x : Txn) (s : State) :
    (issueOwn t o x s).owners = s.owners := rfl
@[simp] theorem issueOwn_result (t : Tag) (o : OwnWrite) (x : Txn) (s : State) :
    (issueOwn t o x s).result = s.result := rfl
@[simp] theorem issueOwn_geometry (t : Tag) (o : OwnWrite) (x : Txn) (s : State) :
    (issueOwn t o x s).geometry = s.geometry := rfl
@[simp] theorem issueOwn_sync (t : Tag) (o : OwnWrite) (x : Txn) (s : State) :
    (issueOwn t o x s).sync = s.sync := rfl
@[simp] theorem issueOwn_apertures (t : Tag) (o : OwnWrite) (x : Txn) (s : State) :
    (issueOwn t o x s).apertures = s.apertures := rfl
@[simp] theorem issueOwn_cadence (t : Tag) (o : OwnWrite) (x : Txn) (s : State) :
    (issueOwn t o x s).cadence = s.cadence := rfl
@[simp] theorem issueOwn_overrun (t : Tag) (o : OwnWrite) (x : Txn) (s : State) :
    (issueOwn t o x s).overrun = s.overrun := rfl
@[simp] theorem issueOwn_active (t : Tag) (o : OwnWrite) (x : Txn) (s : State) :
    (issueOwn t o x s).active = s.active := rfl
@[simp] theorem issueOwn_next (t : Tag) (o : OwnWrite) (x : Txn) (s : State) :
    (issueOwn t o x s).next = s.next := rfl
@[simp] theorem issueOwn_epochCounter (t : Tag) (o : OwnWrite) (x : Txn) (s : State) :
    (issueOwn t o x s).epochCounter = s.epochCounter := rfl
@[simp] theorem issueOwn_selection (t : Tag) (o : OwnWrite) (x : Txn) (s : State) :
    (issueOwn t o x s).selection = s.selection := rfl
@[simp] theorem issueOwn_panelEpoch (t : Tag) (o : OwnWrite) (x : Txn) (s : State) :
    (issueOwn t o x s).panelEpoch = s.panelEpoch := rfl
@[simp] theorem issueOwn_gates (t : Tag) (o : OwnWrite) (x : Txn) (s : State) :
    (issueOwn t o x s).gates = s.gates := rfl
@[simp] theorem issueOwn_fillCount (t : Tag) (o : OwnWrite) (x : Txn) (s : State) :
    (issueOwn t o x s).fillCount = s.fillCount := rfl
@[simp] theorem issueOwn_queue (t : Tag) (o : OwnWrite) (x : Txn) (s : State) :
    (issueOwn t o x s).queue = s.queue := rfl
@[simp] theorem issueOwn_holds (t : Tag) (o : OwnWrite) (x : Txn) (s : State) :
    (issueOwn t o x s).holds = s.holds := rfl
@[simp] theorem issueOwn_passFifo (t : Tag) (o : OwnWrite) (x : Txn) (s : State) :
    (issueOwn t o x s).passFifo = s.passFifo := rfl
@[simp] theorem issueOwn_passWait (t : Tag) (o : OwnWrite) (x : Txn) (s : State) :
    (issueOwn t o x s).passWait = s.passWait := rfl
@[simp] theorem issueOwn_lastGranted (t : Tag) (o : OwnWrite) (x : Txn) (s : State) :
    (issueOwn t o x s).lastGranted = s.lastGranted := rfl
@[simp] theorem issueOwn_tags (t : Tag) (o : OwnWrite) (x : Txn) (s : State) :
    (issueOwn t o x s).tags = put s.tags t (.busy s.wallTime o) := rfl
@[simp] theorem issueOwn_exhaustion (t : Tag) (o : OwnWrite) (x : Txn) (s : State) :
    (issueOwn t o x s).exhaustion = s.exhaustion := rfl
@[simp] theorem issueOwn_commit (t : Tag) (o : OwnWrite) (x : Txn) (s : State) :
    (issueOwn t o x s).commit = s.commit := rfl
@[simp] theorem issueOwn_exposure (t : Tag) (o : OwnWrite) (x : Txn) (s : State) :
    (issueOwn t o x s).exposure = s.exposure := rfl
@[simp] theorem issueOwn_marking (t : Tag) (o : OwnWrite) (x : Txn) (s : State) :
    (issueOwn t o x s).marking = s.marking := rfl
@[simp] theorem issueOwn_channel0 (t : Tag) (o : OwnWrite) (x : Txn) (s : State) :
    (issueOwn t o x s).channel0 = s.channel0 := rfl
@[simp] theorem issueOwn_channel1 (t : Tag) (o : OwnWrite) (x : Txn) (s : State) :
    (issueOwn t o x s).channel1 = s.channel1 := rfl
@[simp] theorem issueOwn_poster (t : Tag) (o : OwnWrite) (x : Txn) (s : State) :
    (issueOwn t o x s).poster = s.poster := rfl
@[simp] theorem issueOwn_lines (t : Tag) (o : OwnWrite) (x : Txn) (s : State) :
    (issueOwn t o x s).lines = s.lines := rfl
@[simp] theorem issueOwn_ingestOut (t : Tag) (o : OwnWrite) (x : Txn) (s : State) :
    (issueOwn t o x s).ingestOut = s.ingestOut := rfl
@[simp] theorem issueOwn_storeOut (t : Tag) (o : OwnWrite) (x : Txn) (s : State) :
    (issueOwn t o x s).storeOut = s.storeOut ++ [x] := rfl
@[simp] theorem issueOwn_choices (t : Tag) (o : OwnWrite) (x : Txn) (s : State) :
    (issueOwn t o x s).choices = s.choices := rfl
@[simp] theorem issueOwn_pending (t : Tag) (o : OwnWrite) (x : Txn) (s : State) :
    (issueOwn t o x s).pending = s.pending := rfl

/-! ## respond -/

@[simp] theorem respond_wallTime (r : Response) (s : State) :
    (respond r s).wallTime = s.wallTime := rfl
@[simp] theorem respond_ponrst (r : Response) (s : State) :
    (respond r s).ponrst = s.ponrst := rfl
@[simp] theorem respond_irq (r : Response) (s : State) :
    (respond r s).irq = s.irq := rfl
@[simp] theorem respond_indicators (r : Response) (s : State) :
    (respond r s).indicators = s.indicators := rfl
@[simp] theorem respond_baseStrap (r : Response) (s : State) :
    (respond r s).baseStrap = s.baseStrap := rfl
@[simp] theorem respond_prioStrap (r : Response) (s : State) :
    (respond r s).prioStrap = s.prioStrap := rfl
@[simp] theorem respond_mode (r : Response) (s : State) :
    (respond r s).mode = s.mode := rfl
@[simp] theorem respond_shadow (r : Response) (s : State) :
    (respond r s).shadow = s.shadow := rfl
@[simp] theorem respond_owners (r : Response) (s : State) :
    (respond r s).owners = s.owners := rfl
@[simp] theorem respond_result (r : Response) (s : State) :
    (respond r s).result = s.result := rfl
@[simp] theorem respond_geometry (r : Response) (s : State) :
    (respond r s).geometry = s.geometry := rfl
@[simp] theorem respond_sync (r : Response) (s : State) :
    (respond r s).sync = s.sync := rfl
@[simp] theorem respond_apertures (r : Response) (s : State) :
    (respond r s).apertures = s.apertures := rfl
@[simp] theorem respond_cadence (r : Response) (s : State) :
    (respond r s).cadence = s.cadence := rfl
@[simp] theorem respond_overrun (r : Response) (s : State) :
    (respond r s).overrun = s.overrun := rfl
@[simp] theorem respond_active (r : Response) (s : State) :
    (respond r s).active = s.active := rfl
@[simp] theorem respond_next (r : Response) (s : State) :
    (respond r s).next = s.next := rfl
@[simp] theorem respond_epochCounter (r : Response) (s : State) :
    (respond r s).epochCounter = s.epochCounter := rfl
@[simp] theorem respond_selection (r : Response) (s : State) :
    (respond r s).selection = s.selection := rfl
@[simp] theorem respond_panelEpoch (r : Response) (s : State) :
    (respond r s).panelEpoch = s.panelEpoch := rfl
@[simp] theorem respond_gates (r : Response) (s : State) :
    (respond r s).gates = s.gates := rfl
@[simp] theorem respond_fillCount (r : Response) (s : State) :
    (respond r s).fillCount = s.fillCount := rfl
@[simp] theorem respond_queue (r : Response) (s : State) :
    (respond r s).queue = s.queue := rfl
@[simp] theorem respond_holds (r : Response) (s : State) :
    (respond r s).holds = s.holds := rfl
@[simp] theorem respond_passFifo (r : Response) (s : State) :
    (respond r s).passFifo = s.passFifo := rfl
@[simp] theorem respond_passWait (r : Response) (s : State) :
    (respond r s).passWait = s.passWait := rfl
@[simp] theorem respond_lastGranted (r : Response) (s : State) :
    (respond r s).lastGranted = s.lastGranted := rfl
@[simp] theorem respond_tags (r : Response) (s : State) :
    (respond r s).tags = s.tags := rfl
@[simp] theorem respond_exhaustion (r : Response) (s : State) :
    (respond r s).exhaustion = s.exhaustion := rfl
@[simp] theorem respond_commit (r : Response) (s : State) :
    (respond r s).commit = s.commit := rfl
@[simp] theorem respond_exposure (r : Response) (s : State) :
    (respond r s).exposure = s.exposure := rfl
@[simp] theorem respond_marking (r : Response) (s : State) :
    (respond r s).marking = s.marking := rfl
@[simp] theorem respond_channel0 (r : Response) (s : State) :
    (respond r s).channel0 = s.channel0 := rfl
@[simp] theorem respond_channel1 (r : Response) (s : State) :
    (respond r s).channel1 = s.channel1 := rfl
@[simp] theorem respond_poster (r : Response) (s : State) :
    (respond r s).poster = s.poster := rfl
@[simp] theorem respond_lines (r : Response) (s : State) :
    (respond r s).lines = s.lines := rfl
@[simp] theorem respond_ingestOut (r : Response) (s : State) :
    (respond r s).ingestOut = s.ingestOut ++ [r] := rfl
@[simp] theorem respond_storeOut (r : Response) (s : State) :
    (respond r s).storeOut = s.storeOut := rfl
@[simp] theorem respond_choices (r : Response) (s : State) :
    (respond r s).choices = s.choices := rfl
@[simp] theorem respond_pending (r : Response) (s : State) :
    (respond r s).pending = s.pending := rfl

/-! ## answer -/

@[simp] theorem answer_wallTime (t : Txn) (st : Status) (s : State) :
    (answer t st s).wallTime = s.wallTime := rfl
@[simp] theorem answer_ponrst (t : Txn) (st : Status) (s : State) :
    (answer t st s).ponrst = s.ponrst := rfl
@[simp] theorem answer_irq (t : Txn) (st : Status) (s : State) :
    (answer t st s).irq = s.irq := rfl
@[simp] theorem answer_indicators (t : Txn) (st : Status) (s : State) :
    (answer t st s).indicators = s.indicators := rfl
@[simp] theorem answer_baseStrap (t : Txn) (st : Status) (s : State) :
    (answer t st s).baseStrap = s.baseStrap := rfl
@[simp] theorem answer_prioStrap (t : Txn) (st : Status) (s : State) :
    (answer t st s).prioStrap = s.prioStrap := rfl
@[simp] theorem answer_mode (t : Txn) (st : Status) (s : State) :
    (answer t st s).mode = s.mode := rfl
@[simp] theorem answer_shadow (t : Txn) (st : Status) (s : State) :
    (answer t st s).shadow = s.shadow := rfl
@[simp] theorem answer_owners (t : Txn) (st : Status) (s : State) :
    (answer t st s).owners = s.owners := rfl
@[simp] theorem answer_result (t : Txn) (st : Status) (s : State) :
    (answer t st s).result = s.result := rfl
@[simp] theorem answer_geometry (t : Txn) (st : Status) (s : State) :
    (answer t st s).geometry = s.geometry := rfl
@[simp] theorem answer_sync (t : Txn) (st : Status) (s : State) :
    (answer t st s).sync = s.sync := rfl
@[simp] theorem answer_apertures (t : Txn) (st : Status) (s : State) :
    (answer t st s).apertures = s.apertures := rfl
@[simp] theorem answer_cadence (t : Txn) (st : Status) (s : State) :
    (answer t st s).cadence = s.cadence := rfl
@[simp] theorem answer_overrun (t : Txn) (st : Status) (s : State) :
    (answer t st s).overrun = s.overrun := rfl
@[simp] theorem answer_active (t : Txn) (st : Status) (s : State) :
    (answer t st s).active = s.active := rfl
@[simp] theorem answer_next (t : Txn) (st : Status) (s : State) :
    (answer t st s).next = s.next := rfl
@[simp] theorem answer_epochCounter (t : Txn) (st : Status) (s : State) :
    (answer t st s).epochCounter = s.epochCounter := rfl
@[simp] theorem answer_selection (t : Txn) (st : Status) (s : State) :
    (answer t st s).selection = s.selection := rfl
@[simp] theorem answer_panelEpoch (t : Txn) (st : Status) (s : State) :
    (answer t st s).panelEpoch = s.panelEpoch := rfl
@[simp] theorem answer_gates (t : Txn) (st : Status) (s : State) :
    (answer t st s).gates = s.gates := rfl
@[simp] theorem answer_fillCount (t : Txn) (st : Status) (s : State) :
    (answer t st s).fillCount = s.fillCount := rfl
@[simp] theorem answer_queue (t : Txn) (st : Status) (s : State) :
    (answer t st s).queue = s.queue := rfl
@[simp] theorem answer_holds (t : Txn) (st : Status) (s : State) :
    (answer t st s).holds = s.holds := rfl
@[simp] theorem answer_passFifo (t : Txn) (st : Status) (s : State) :
    (answer t st s).passFifo = s.passFifo := rfl
@[simp] theorem answer_passWait (t : Txn) (st : Status) (s : State) :
    (answer t st s).passWait = s.passWait := rfl
@[simp] theorem answer_lastGranted (t : Txn) (st : Status) (s : State) :
    (answer t st s).lastGranted = s.lastGranted := rfl
@[simp] theorem answer_tags (t : Txn) (st : Status) (s : State) :
    (answer t st s).tags = s.tags := rfl
@[simp] theorem answer_exhaustion (t : Txn) (st : Status) (s : State) :
    (answer t st s).exhaustion = s.exhaustion := rfl
@[simp] theorem answer_commit (t : Txn) (st : Status) (s : State) :
    (answer t st s).commit = s.commit := rfl
@[simp] theorem answer_exposure (t : Txn) (st : Status) (s : State) :
    (answer t st s).exposure = s.exposure := rfl
@[simp] theorem answer_marking (t : Txn) (st : Status) (s : State) :
    (answer t st s).marking = s.marking := rfl
@[simp] theorem answer_channel0 (t : Txn) (st : Status) (s : State) :
    (answer t st s).channel0 = s.channel0 := rfl
@[simp] theorem answer_channel1 (t : Txn) (st : Status) (s : State) :
    (answer t st s).channel1 = s.channel1 := rfl
@[simp] theorem answer_poster (t : Txn) (st : Status) (s : State) :
    (answer t st s).poster = s.poster := rfl
@[simp] theorem answer_lines (t : Txn) (st : Status) (s : State) :
    (answer t st s).lines = s.lines := rfl
@[simp] theorem answer_ingestOut (t : Txn) (st : Status) (s : State) :
    (answer t st s).ingestOut = s.ingestOut ++ [responseTo t st] := rfl
@[simp] theorem answer_storeOut (t : Txn) (st : Status) (s : State) :
    (answer t st s).storeOut = s.storeOut := rfl
@[simp] theorem answer_choices (t : Txn) (st : Status) (s : State) :
    (answer t st s).choices = s.choices := rfl
@[simp] theorem answer_pending (t : Txn) (st : Status) (s : State) :
    (answer t st s).pending = s.pending := rfl

/-! ## enqueue -/

@[simp] theorem enqueue_wallTime (r : Record) (s : State) :
    (enqueue r s).wallTime = s.wallTime := rfl
@[simp] theorem enqueue_ponrst (r : Record) (s : State) :
    (enqueue r s).ponrst = s.ponrst := rfl
@[simp] theorem enqueue_irq (r : Record) (s : State) :
    (enqueue r s).irq = s.irq := rfl
@[simp] theorem enqueue_indicators (r : Record) (s : State) :
    (enqueue r s).indicators = s.indicators := rfl
@[simp] theorem enqueue_baseStrap (r : Record) (s : State) :
    (enqueue r s).baseStrap = s.baseStrap := rfl
@[simp] theorem enqueue_prioStrap (r : Record) (s : State) :
    (enqueue r s).prioStrap = s.prioStrap := rfl
@[simp] theorem enqueue_mode (r : Record) (s : State) :
    (enqueue r s).mode = s.mode := rfl
@[simp] theorem enqueue_shadow (r : Record) (s : State) :
    (enqueue r s).shadow = s.shadow := rfl
@[simp] theorem enqueue_owners (r : Record) (s : State) :
    (enqueue r s).owners = s.owners := rfl
@[simp] theorem enqueue_result (r : Record) (s : State) :
    (enqueue r s).result = s.result := rfl
@[simp] theorem enqueue_geometry (r : Record) (s : State) :
    (enqueue r s).geometry = s.geometry := rfl
@[simp] theorem enqueue_sync (r : Record) (s : State) :
    (enqueue r s).sync = s.sync := rfl
@[simp] theorem enqueue_apertures (r : Record) (s : State) :
    (enqueue r s).apertures = s.apertures := rfl
@[simp] theorem enqueue_cadence (r : Record) (s : State) :
    (enqueue r s).cadence = s.cadence := rfl
@[simp] theorem enqueue_overrun (r : Record) (s : State) :
    (enqueue r s).overrun = s.overrun := rfl
@[simp] theorem enqueue_active (r : Record) (s : State) :
    (enqueue r s).active = s.active := rfl
@[simp] theorem enqueue_next (r : Record) (s : State) :
    (enqueue r s).next = s.next := rfl
@[simp] theorem enqueue_epochCounter (r : Record) (s : State) :
    (enqueue r s).epochCounter = s.epochCounter := rfl
@[simp] theorem enqueue_selection (r : Record) (s : State) :
    (enqueue r s).selection = s.selection := rfl
@[simp] theorem enqueue_panelEpoch (r : Record) (s : State) :
    (enqueue r s).panelEpoch = s.panelEpoch := rfl
@[simp] theorem enqueue_gates (r : Record) (s : State) :
    (enqueue r s).gates = s.gates := rfl
@[simp] theorem enqueue_fillCount (r : Record) (s : State) :
    (enqueue r s).fillCount = s.fillCount := rfl
@[simp] theorem enqueue_queue (r : Record) (s : State) :
    (enqueue r s).queue = s.queue ++ [r] := rfl
@[simp] theorem enqueue_holds (r : Record) (s : State) :
    (enqueue r s).holds = s.holds := rfl
@[simp] theorem enqueue_passFifo (r : Record) (s : State) :
    (enqueue r s).passFifo = s.passFifo := rfl
@[simp] theorem enqueue_passWait (r : Record) (s : State) :
    (enqueue r s).passWait = s.passWait := rfl
@[simp] theorem enqueue_lastGranted (r : Record) (s : State) :
    (enqueue r s).lastGranted = s.lastGranted := rfl
@[simp] theorem enqueue_tags (r : Record) (s : State) :
    (enqueue r s).tags = s.tags := rfl
@[simp] theorem enqueue_exhaustion (r : Record) (s : State) :
    (enqueue r s).exhaustion = s.exhaustion := rfl
@[simp] theorem enqueue_commit (r : Record) (s : State) :
    (enqueue r s).commit = s.commit := rfl
@[simp] theorem enqueue_exposure (r : Record) (s : State) :
    (enqueue r s).exposure = s.exposure := rfl
@[simp] theorem enqueue_marking (r : Record) (s : State) :
    (enqueue r s).marking = s.marking := rfl
@[simp] theorem enqueue_channel0 (r : Record) (s : State) :
    (enqueue r s).channel0 = s.channel0 := rfl
@[simp] theorem enqueue_channel1 (r : Record) (s : State) :
    (enqueue r s).channel1 = s.channel1 := rfl
@[simp] theorem enqueue_poster (r : Record) (s : State) :
    (enqueue r s).poster = flaggedIf true .occupancy s.poster := rfl
@[simp] theorem enqueue_lines (r : Record) (s : State) :
    (enqueue r s).lines = s.lines := rfl
@[simp] theorem enqueue_ingestOut (r : Record) (s : State) :
    (enqueue r s).ingestOut = s.ingestOut := rfl
@[simp] theorem enqueue_storeOut (r : Record) (s : State) :
    (enqueue r s).storeOut = s.storeOut := rfl
@[simp] theorem enqueue_choices (r : Record) (s : State) :
    (enqueue r s).choices = s.choices := rfl
@[simp] theorem enqueue_pending (r : Record) (s : State) :
    (enqueue r s).pending = s.pending := rfl

/-! ## setActiveRecord -/

@[simp] theorem setActiveRecord_wallTime (w : WindowId) (r : LayoutRecord) (s : State) :
    (setActiveRecord w r s).wallTime = s.wallTime := rfl
@[simp] theorem setActiveRecord_ponrst (w : WindowId) (r : LayoutRecord) (s : State) :
    (setActiveRecord w r s).ponrst = s.ponrst := rfl
@[simp] theorem setActiveRecord_irq (w : WindowId) (r : LayoutRecord) (s : State) :
    (setActiveRecord w r s).irq = s.irq := rfl
@[simp] theorem setActiveRecord_indicators (w : WindowId) (r : LayoutRecord) (s : State) :
    (setActiveRecord w r s).indicators = s.indicators := rfl
@[simp] theorem setActiveRecord_baseStrap (w : WindowId) (r : LayoutRecord) (s : State) :
    (setActiveRecord w r s).baseStrap = s.baseStrap := rfl
@[simp] theorem setActiveRecord_prioStrap (w : WindowId) (r : LayoutRecord) (s : State) :
    (setActiveRecord w r s).prioStrap = s.prioStrap := rfl
@[simp] theorem setActiveRecord_mode (w : WindowId) (r : LayoutRecord) (s : State) :
    (setActiveRecord w r s).mode = s.mode := rfl
@[simp] theorem setActiveRecord_shadow (w : WindowId) (r : LayoutRecord) (s : State) :
    (setActiveRecord w r s).shadow = s.shadow := rfl
@[simp] theorem setActiveRecord_owners (w : WindowId) (r : LayoutRecord) (s : State) :
    (setActiveRecord w r s).owners = s.owners := rfl
@[simp] theorem setActiveRecord_result (w : WindowId) (r : LayoutRecord) (s : State) :
    (setActiveRecord w r s).result = s.result := rfl
@[simp] theorem setActiveRecord_geometry (w : WindowId) (r : LayoutRecord) (s : State) :
    (setActiveRecord w r s).geometry = s.geometry := rfl
@[simp] theorem setActiveRecord_sync (w : WindowId) (r : LayoutRecord) (s : State) :
    (setActiveRecord w r s).sync = s.sync := rfl
@[simp] theorem setActiveRecord_apertures (w : WindowId) (r : LayoutRecord) (s : State) :
    (setActiveRecord w r s).apertures = s.apertures := rfl
@[simp] theorem setActiveRecord_cadence (w : WindowId) (r : LayoutRecord) (s : State) :
    (setActiveRecord w r s).cadence = s.cadence := rfl
@[simp] theorem setActiveRecord_overrun (w : WindowId) (r : LayoutRecord) (s : State) :
    (setActiveRecord w r s).overrun = s.overrun := rfl
@[simp] theorem setActiveRecord_active (w : WindowId) (r : LayoutRecord) (s : State) :
    (setActiveRecord w r s).active = { s.active with records := put s.active.records w r } := rfl
@[simp] theorem setActiveRecord_next (w : WindowId) (r : LayoutRecord) (s : State) :
    (setActiveRecord w r s).next = s.next := rfl
@[simp] theorem setActiveRecord_epochCounter (w : WindowId) (r : LayoutRecord) (s : State) :
    (setActiveRecord w r s).epochCounter = s.epochCounter := rfl
@[simp] theorem setActiveRecord_selection (w : WindowId) (r : LayoutRecord) (s : State) :
    (setActiveRecord w r s).selection = s.selection := rfl
@[simp] theorem setActiveRecord_panelEpoch (w : WindowId) (r : LayoutRecord) (s : State) :
    (setActiveRecord w r s).panelEpoch = s.panelEpoch := rfl
@[simp] theorem setActiveRecord_gates (w : WindowId) (r : LayoutRecord) (s : State) :
    (setActiveRecord w r s).gates = s.gates := rfl
@[simp] theorem setActiveRecord_fillCount (w : WindowId) (r : LayoutRecord) (s : State) :
    (setActiveRecord w r s).fillCount = s.fillCount := rfl
@[simp] theorem setActiveRecord_queue (w : WindowId) (r : LayoutRecord) (s : State) :
    (setActiveRecord w r s).queue = s.queue := rfl
@[simp] theorem setActiveRecord_holds (w : WindowId) (r : LayoutRecord) (s : State) :
    (setActiveRecord w r s).holds = s.holds := rfl
@[simp] theorem setActiveRecord_passFifo (w : WindowId) (r : LayoutRecord) (s : State) :
    (setActiveRecord w r s).passFifo = s.passFifo := rfl
@[simp] theorem setActiveRecord_passWait (w : WindowId) (r : LayoutRecord) (s : State) :
    (setActiveRecord w r s).passWait = s.passWait := rfl
@[simp] theorem setActiveRecord_lastGranted (w : WindowId) (r : LayoutRecord) (s : State) :
    (setActiveRecord w r s).lastGranted = s.lastGranted := rfl
@[simp] theorem setActiveRecord_tags (w : WindowId) (r : LayoutRecord) (s : State) :
    (setActiveRecord w r s).tags = s.tags := rfl
@[simp] theorem setActiveRecord_exhaustion (w : WindowId) (r : LayoutRecord) (s : State) :
    (setActiveRecord w r s).exhaustion = s.exhaustion := rfl
@[simp] theorem setActiveRecord_commit (w : WindowId) (r : LayoutRecord) (s : State) :
    (setActiveRecord w r s).commit = s.commit := rfl
@[simp] theorem setActiveRecord_exposure (w : WindowId) (r : LayoutRecord) (s : State) :
    (setActiveRecord w r s).exposure = s.exposure := rfl
@[simp] theorem setActiveRecord_marking (w : WindowId) (r : LayoutRecord) (s : State) :
    (setActiveRecord w r s).marking = s.marking := rfl
@[simp] theorem setActiveRecord_channel0 (w : WindowId) (r : LayoutRecord) (s : State) :
    (setActiveRecord w r s).channel0 = s.channel0 := rfl
@[simp] theorem setActiveRecord_channel1 (w : WindowId) (r : LayoutRecord) (s : State) :
    (setActiveRecord w r s).channel1 = s.channel1 := rfl
@[simp] theorem setActiveRecord_poster (w : WindowId) (r : LayoutRecord) (s : State) :
    (setActiveRecord w r s).poster = flaggedIf (s.active.records[w].window.state != r.window.state || s.active.records[w].effective != r.effective) (.image w) s.poster := rfl
@[simp] theorem setActiveRecord_lines (w : WindowId) (r : LayoutRecord) (s : State) :
    (setActiveRecord w r s).lines = s.lines := rfl
@[simp] theorem setActiveRecord_ingestOut (w : WindowId) (r : LayoutRecord) (s : State) :
    (setActiveRecord w r s).ingestOut = s.ingestOut := rfl
@[simp] theorem setActiveRecord_storeOut (w : WindowId) (r : LayoutRecord) (s : State) :
    (setActiveRecord w r s).storeOut = s.storeOut := rfl
@[simp] theorem setActiveRecord_choices (w : WindowId) (r : LayoutRecord) (s : State) :
    (setActiveRecord w r s).choices = s.choices := rfl
@[simp] theorem setActiveRecord_pending (w : WindowId) (r : LayoutRecord) (s : State) :
    (setActiveRecord w r s).pending = s.pending := rfl

end Sys2Proof.Machine
end

