-- ==== Sys2Proof/Laws/Frames.lean ====
section
/-! SUPPORT. Footprints: which fields an operation can change. Each structure says that `t` differs from `s` in the named
fields at most; each has reflexivity, transitivity and the inclusions between footprints. -/

namespace Sys2Proof.Machine

/-- From `s` to `t` only these may differ: the Poster. -/
structure PostOnly (s t : State) : Prop where
  wallTime : t.wallTime = s.wallTime
  ponrst : t.ponrst = s.ponrst
  irq : t.irq = s.irq
  indicators : t.indicators = s.indicators
  baseStrap : t.baseStrap = s.baseStrap
  prioStrap : t.prioStrap = s.prioStrap
  mode : t.mode = s.mode
  shadow : t.shadow = s.shadow
  owners : t.owners = s.owners
  result : t.result = s.result
  geometry : t.geometry = s.geometry
  sync : t.sync = s.sync
  apertures : t.apertures = s.apertures
  cadence : t.cadence = s.cadence
  overrun : t.overrun = s.overrun
  active : t.active = s.active
  next : t.next = s.next
  epochCounter : t.epochCounter = s.epochCounter
  selection : t.selection = s.selection
  panelEpoch : t.panelEpoch = s.panelEpoch
  gates : t.gates = s.gates
  fillCount : t.fillCount = s.fillCount
  queue : t.queue = s.queue
  holds : t.holds = s.holds
  passFifo : t.passFifo = s.passFifo
  passWait : t.passWait = s.passWait
  lastGranted : t.lastGranted = s.lastGranted
  tags : t.tags = s.tags
  exhaustion : t.exhaustion = s.exhaustion
  commit : t.commit = s.commit
  exposure : t.exposure = s.exposure
  marking : t.marking = s.marking
  channel0 : t.channel0 = s.channel0
  channel1 : t.channel1 = s.channel1
  lines : t.lines = s.lines
  ingestOut : t.ingestOut = s.ingestOut
  storeOut : t.storeOut = s.storeOut
  choices : t.choices = s.choices
  pending : t.pending = s.pending

theorem PostOnly.refl (s : State) : PostOnly s s :=
    ⟨rfl, rfl, rfl, rfl, rfl, rfl, rfl, rfl, rfl, rfl, rfl, rfl, rfl, rfl, rfl, rfl, rfl, rfl, rfl, rfl, rfl, rfl,
    rfl, rfl, rfl, rfl, rfl, rfl, rfl, rfl, rfl, rfl, rfl, rfl, rfl, rfl, rfl, rfl, rfl⟩

theorem PostOnly.trans {s t u : State} (h : PostOnly s t) (k : PostOnly t u) : PostOnly s u :=
    ⟨k.wallTime.trans h.wallTime, k.ponrst.trans h.ponrst, k.irq.trans h.irq, k.indicators.trans h.indicators,
    k.baseStrap.trans h.baseStrap, k.prioStrap.trans h.prioStrap, k.mode.trans h.mode, k.shadow.trans h.shadow,
    k.owners.trans h.owners, k.result.trans h.result, k.geometry.trans h.geometry, k.sync.trans h.sync,
    k.apertures.trans h.apertures, k.cadence.trans h.cadence, k.overrun.trans h.overrun, k.active.trans h.active,
    k.next.trans h.next, k.epochCounter.trans h.epochCounter, k.selection.trans h.selection, k.panelEpoch.trans
    h.panelEpoch, k.gates.trans h.gates, k.fillCount.trans h.fillCount, k.queue.trans h.queue, k.holds.trans
    h.holds, k.passFifo.trans h.passFifo, k.passWait.trans h.passWait, k.lastGranted.trans h.lastGranted,
    k.tags.trans h.tags, k.exhaustion.trans h.exhaustion, k.commit.trans h.commit, k.exposure.trans h.exposure,
    k.marking.trans h.marking, k.channel0.trans h.channel0, k.channel1.trans h.channel1, k.lines.trans h.lines,
    k.ingestOut.trans h.ingestOut, k.storeOut.trans h.storeOut, k.choices.trans h.choices, k.pending.trans
    h.pending⟩

/-- From `s` to `t` only these may differ: the Poster, the fill lists and channels, and the pending-fill counts. -/
structure FillOnly (s t : State) : Prop where
  wallTime : t.wallTime = s.wallTime
  ponrst : t.ponrst = s.ponrst
  irq : t.irq = s.irq
  indicators : t.indicators = s.indicators
  baseStrap : t.baseStrap = s.baseStrap
  prioStrap : t.prioStrap = s.prioStrap
  mode : t.mode = s.mode
  shadow : t.shadow = s.shadow
  owners : t.owners = s.owners
  result : t.result = s.result
  geometry : t.geometry = s.geometry
  sync : t.sync = s.sync
  apertures : t.apertures = s.apertures
  cadence : t.cadence = s.cadence
  overrun : t.overrun = s.overrun
  active : t.active = s.active
  next : t.next = s.next
  epochCounter : t.epochCounter = s.epochCounter
  selection : t.selection = s.selection
  panelEpoch : t.panelEpoch = s.panelEpoch
  gates : t.gates = s.gates
  queue : t.queue = s.queue
  holds : t.holds = s.holds
  passFifo : t.passFifo = s.passFifo
  passWait : t.passWait = s.passWait
  lastGranted : t.lastGranted = s.lastGranted
  tags : t.tags = s.tags
  exhaustion : t.exhaustion = s.exhaustion
  commit : t.commit = s.commit
  lines : t.lines = s.lines
  ingestOut : t.ingestOut = s.ingestOut
  storeOut : t.storeOut = s.storeOut
  choices : t.choices = s.choices
  pending : t.pending = s.pending

theorem FillOnly.refl (s : State) : FillOnly s s :=
    ⟨rfl, rfl, rfl, rfl, rfl, rfl, rfl, rfl, rfl, rfl, rfl, rfl, rfl, rfl, rfl, rfl, rfl, rfl, rfl, rfl, rfl, rfl,
    rfl, rfl, rfl, rfl, rfl, rfl, rfl, rfl, rfl, rfl, rfl, rfl⟩

theorem FillOnly.trans {s t u : State} (h : FillOnly s t) (k : FillOnly t u) : FillOnly s u :=
    ⟨k.wallTime.trans h.wallTime, k.ponrst.trans h.ponrst, k.irq.trans h.irq, k.indicators.trans h.indicators,
    k.baseStrap.trans h.baseStrap, k.prioStrap.trans h.prioStrap, k.mode.trans h.mode, k.shadow.trans h.shadow,
    k.owners.trans h.owners, k.result.trans h.result, k.geometry.trans h.geometry, k.sync.trans h.sync,
    k.apertures.trans h.apertures, k.cadence.trans h.cadence, k.overrun.trans h.overrun, k.active.trans h.active,
    k.next.trans h.next, k.epochCounter.trans h.epochCounter, k.selection.trans h.selection, k.panelEpoch.trans
    h.panelEpoch, k.gates.trans h.gates, k.queue.trans h.queue, k.holds.trans h.holds, k.passFifo.trans h.passFifo,
    k.passWait.trans h.passWait, k.lastGranted.trans h.lastGranted, k.tags.trans h.tags, k.exhaustion.trans
    h.exhaustion, k.commit.trans h.commit, k.lines.trans h.lines, k.ingestOut.trans h.ingestOut, k.storeOut.trans
    h.storeOut, k.choices.trans h.choices, k.pending.trans h.pending⟩

theorem PostOnly.toFillOnly {s t : State} (h : PostOnly s t) : FillOnly s t :=
    ⟨h.wallTime, h.ponrst, h.irq, h.indicators, h.baseStrap, h.prioStrap, h.mode, h.shadow, h.owners, h.result,
    h.geometry, h.sync, h.apertures, h.cadence, h.overrun, h.active, h.next, h.epochCounter, h.selection,
    h.panelEpoch, h.gates, h.queue, h.holds, h.passFifo, h.passWait, h.lastGranted, h.tags, h.exhaustion, h.commit,
    h.lines, h.ingestOut, h.storeOut, h.choices, h.pending⟩

/-- From `s` to `t` only these may differ: the Poster, the Expansion Queue, the hold list, the pass-through path and the responses given. -/
structure WalkOnly (s t : State) : Prop where
  wallTime : t.wallTime = s.wallTime
  ponrst : t.ponrst = s.ponrst
  irq : t.irq = s.irq
  indicators : t.indicators = s.indicators
  baseStrap : t.baseStrap = s.baseStrap
  prioStrap : t.prioStrap = s.prioStrap
  mode : t.mode = s.mode
  shadow : t.shadow = s.shadow
  owners : t.owners = s.owners
  result : t.result = s.result
  geometry : t.geometry = s.geometry
  sync : t.sync = s.sync
  apertures : t.apertures = s.apertures
  cadence : t.cadence = s.cadence
  overrun : t.overrun = s.overrun
  active : t.active = s.active
  next : t.next = s.next
  epochCounter : t.epochCounter = s.epochCounter
  selection : t.selection = s.selection
  panelEpoch : t.panelEpoch = s.panelEpoch
  gates : t.gates = s.gates
  fillCount : t.fillCount = s.fillCount
  lastGranted : t.lastGranted = s.lastGranted
  tags : t.tags = s.tags
  exhaustion : t.exhaustion = s.exhaustion
  commit : t.commit = s.commit
  exposure : t.exposure = s.exposure
  marking : t.marking = s.marking
  channel0 : t.channel0 = s.channel0
  channel1 : t.channel1 = s.channel1
  lines : t.lines = s.lines
  storeOut : t.storeOut = s.storeOut
  choices : t.choices = s.choices
  pending : t.pending = s.pending

theorem WalkOnly.refl (s : State) : WalkOnly s s :=
    ⟨rfl, rfl, rfl, rfl, rfl, rfl, rfl, rfl, rfl, rfl, rfl, rfl, rfl, rfl, rfl, rfl, rfl, rfl, rfl, rfl, rfl, rfl,
    rfl, rfl, rfl, rfl, rfl, rfl, rfl, rfl, rfl, rfl, rfl, rfl⟩

theorem WalkOnly.trans {s t u : State} (h : WalkOnly s t) (k : WalkOnly t u) : WalkOnly s u :=
    ⟨k.wallTime.trans h.wallTime, k.ponrst.trans h.ponrst, k.irq.trans h.irq, k.indicators.trans h.indicators,
    k.baseStrap.trans h.baseStrap, k.prioStrap.trans h.prioStrap, k.mode.trans h.mode, k.shadow.trans h.shadow,
    k.owners.trans h.owners, k.result.trans h.result, k.geometry.trans h.geometry, k.sync.trans h.sync,
    k.apertures.trans h.apertures, k.cadence.trans h.cadence, k.overrun.trans h.overrun, k.active.trans h.active,
    k.next.trans h.next, k.epochCounter.trans h.epochCounter, k.selection.trans h.selection, k.panelEpoch.trans
    h.panelEpoch, k.gates.trans h.gates, k.fillCount.trans h.fillCount, k.lastGranted.trans h.lastGranted,
    k.tags.trans h.tags, k.exhaustion.trans h.exhaustion, k.commit.trans h.commit, k.exposure.trans h.exposure,
    k.marking.trans h.marking, k.channel0.trans h.channel0, k.channel1.trans h.channel1, k.lines.trans h.lines,
    k.storeOut.trans h.storeOut, k.choices.trans h.choices, k.pending.trans h.pending⟩

theorem PostOnly.toWalkOnly {s t : State} (h : PostOnly s t) : WalkOnly s t :=
    ⟨h.wallTime, h.ponrst, h.irq, h.indicators, h.baseStrap, h.prioStrap, h.mode, h.shadow, h.owners, h.result,
    h.geometry, h.sync, h.apertures, h.cadence, h.overrun, h.active, h.next, h.epochCounter, h.selection,
    h.panelEpoch, h.gates, h.fillCount, h.lastGranted, h.tags, h.exhaustion, h.commit, h.exposure, h.marking,
    h.channel0, h.channel1, h.lines, h.storeOut, h.choices, h.pending⟩

/-- From `s` to `t` only these may differ: what a change of cadence state can touch: the cadence and layout records, gates, indicators, fills and the Poster. -/
structure MoveOnly (s t : State) : Prop where
  wallTime : t.wallTime = s.wallTime
  ponrst : t.ponrst = s.ponrst
  irq : t.irq = s.irq
  baseStrap : t.baseStrap = s.baseStrap
  prioStrap : t.prioStrap = s.prioStrap
  mode : t.mode = s.mode
  shadow : t.shadow = s.shadow
  owners : t.owners = s.owners
  result : t.result = s.result
  geometry : t.geometry = s.geometry
  sync : t.sync = s.sync
  apertures : t.apertures = s.apertures
  overrun : t.overrun = s.overrun
  epochCounter : t.epochCounter = s.epochCounter
  selection : t.selection = s.selection
  panelEpoch : t.panelEpoch = s.panelEpoch
  queue : t.queue = s.queue
  holds : t.holds = s.holds
  passFifo : t.passFifo = s.passFifo
  passWait : t.passWait = s.passWait
  lastGranted : t.lastGranted = s.lastGranted
  tags : t.tags = s.tags
  exhaustion : t.exhaustion = s.exhaustion
  commit : t.commit = s.commit
  lines : t.lines = s.lines
  ingestOut : t.ingestOut = s.ingestOut
  storeOut : t.storeOut = s.storeOut
  pending : t.pending = s.pending

theorem MoveOnly.refl (s : State) : MoveOnly s s :=
    ⟨rfl, rfl, rfl, rfl, rfl, rfl, rfl, rfl, rfl, rfl, rfl, rfl, rfl, rfl, rfl, rfl, rfl, rfl, rfl, rfl, rfl, rfl,
    rfl, rfl, rfl, rfl, rfl, rfl⟩

theorem MoveOnly.trans {s t u : State} (h : MoveOnly s t) (k : MoveOnly t u) : MoveOnly s u :=
    ⟨k.wallTime.trans h.wallTime, k.ponrst.trans h.ponrst, k.irq.trans h.irq, k.baseStrap.trans h.baseStrap,
    k.prioStrap.trans h.prioStrap, k.mode.trans h.mode, k.shadow.trans h.shadow, k.owners.trans h.owners,
    k.result.trans h.result, k.geometry.trans h.geometry, k.sync.trans h.sync, k.apertures.trans h.apertures,
    k.overrun.trans h.overrun, k.epochCounter.trans h.epochCounter, k.selection.trans h.selection,
    k.panelEpoch.trans h.panelEpoch, k.queue.trans h.queue, k.holds.trans h.holds, k.passFifo.trans h.passFifo,
    k.passWait.trans h.passWait, k.lastGranted.trans h.lastGranted, k.tags.trans h.tags, k.exhaustion.trans
    h.exhaustion, k.commit.trans h.commit, k.lines.trans h.lines, k.ingestOut.trans h.ingestOut, k.storeOut.trans
    h.storeOut, k.pending.trans h.pending⟩

theorem PostOnly.toMoveOnly {s t : State} (h : PostOnly s t) : MoveOnly s t :=
    ⟨h.wallTime, h.ponrst, h.irq, h.baseStrap, h.prioStrap, h.mode, h.shadow, h.owners, h.result, h.geometry,
    h.sync, h.apertures, h.overrun, h.epochCounter, h.selection, h.panelEpoch, h.queue, h.holds, h.passFifo,
    h.passWait, h.lastGranted, h.tags, h.exhaustion, h.commit, h.lines, h.ingestOut, h.storeOut, h.pending⟩

theorem FillOnly.toMoveOnly {s t : State} (h : FillOnly s t) : MoveOnly s t :=
    ⟨h.wallTime, h.ponrst, h.irq, h.baseStrap, h.prioStrap, h.mode, h.shadow, h.owners, h.result, h.geometry,
    h.sync, h.apertures, h.overrun, h.epochCounter, h.selection, h.panelEpoch, h.queue, h.holds, h.passFifo,
    h.passWait, h.lastGranted, h.tags, h.exhaustion, h.commit, h.lines, h.ingestOut, h.storeOut, h.pending⟩

/-- From `s` to `t` only these may differ: what a panel switch and a completion can touch. -/
structure SwitchOnly (s t : State) : Prop where
  wallTime : t.wallTime = s.wallTime
  ponrst : t.ponrst = s.ponrst
  irq : t.irq = s.irq
  indicators : t.indicators = s.indicators
  baseStrap : t.baseStrap = s.baseStrap
  prioStrap : t.prioStrap = s.prioStrap
  mode : t.mode = s.mode
  shadow : t.shadow = s.shadow
  owners : t.owners = s.owners
  result : t.result = s.result
  geometry : t.geometry = s.geometry
  sync : t.sync = s.sync
  apertures : t.apertures = s.apertures
  cadence : t.cadence = s.cadence
  overrun : t.overrun = s.overrun
  epochCounter : t.epochCounter = s.epochCounter
  gates : t.gates = s.gates
  lastGranted : t.lastGranted = s.lastGranted
  tags : t.tags = s.tags
  exhaustion : t.exhaustion = s.exhaustion
  lines : t.lines = s.lines
  storeOut : t.storeOut = s.storeOut
  choices : t.choices = s.choices
  pending : t.pending = s.pending

theorem SwitchOnly.refl (s : State) : SwitchOnly s s :=
    ⟨rfl, rfl, rfl, rfl, rfl, rfl, rfl, rfl, rfl, rfl, rfl, rfl, rfl, rfl, rfl, rfl, rfl, rfl, rfl, rfl, rfl, rfl,
    rfl, rfl⟩

theorem SwitchOnly.trans {s t u : State} (h : SwitchOnly s t) (k : SwitchOnly t u) : SwitchOnly s u :=
    ⟨k.wallTime.trans h.wallTime, k.ponrst.trans h.ponrst, k.irq.trans h.irq, k.indicators.trans h.indicators,
    k.baseStrap.trans h.baseStrap, k.prioStrap.trans h.prioStrap, k.mode.trans h.mode, k.shadow.trans h.shadow,
    k.owners.trans h.owners, k.result.trans h.result, k.geometry.trans h.geometry, k.sync.trans h.sync,
    k.apertures.trans h.apertures, k.cadence.trans h.cadence, k.overrun.trans h.overrun, k.epochCounter.trans
    h.epochCounter, k.gates.trans h.gates, k.lastGranted.trans h.lastGranted, k.tags.trans h.tags,
    k.exhaustion.trans h.exhaustion, k.lines.trans h.lines, k.storeOut.trans h.storeOut, k.choices.trans h.choices,
    k.pending.trans h.pending⟩

theorem PostOnly.toSwitchOnly {s t : State} (h : PostOnly s t) : SwitchOnly s t :=
    ⟨h.wallTime, h.ponrst, h.irq, h.indicators, h.baseStrap, h.prioStrap, h.mode, h.shadow, h.owners, h.result,
    h.geometry, h.sync, h.apertures, h.cadence, h.overrun, h.epochCounter, h.gates, h.lastGranted, h.tags,
    h.exhaustion, h.lines, h.storeOut, h.choices, h.pending⟩

theorem FillOnly.toSwitchOnly {s t : State} (h : FillOnly s t) : SwitchOnly s t :=
    ⟨h.wallTime, h.ponrst, h.irq, h.indicators, h.baseStrap, h.prioStrap, h.mode, h.shadow, h.owners, h.result,
    h.geometry, h.sync, h.apertures, h.cadence, h.overrun, h.epochCounter, h.gates, h.lastGranted, h.tags,
    h.exhaustion, h.lines, h.storeOut, h.choices, h.pending⟩

theorem WalkOnly.toSwitchOnly {s t : State} (h : WalkOnly s t) : SwitchOnly s t :=
    ⟨h.wallTime, h.ponrst, h.irq, h.indicators, h.baseStrap, h.prioStrap, h.mode, h.shadow, h.owners, h.result,
    h.geometry, h.sync, h.apertures, h.cadence, h.overrun, h.epochCounter, h.gates, h.lastGranted, h.tags,
    h.exhaustion, h.lines, h.storeOut, h.choices, h.pending⟩

/-- From `s` to `t` only these may differ: anything but wall time, the reset pin and straps, the last grant, the waiting lines, the issued transactions and the command queue. -/
structure TakeOnly (s t : State) : Prop where
  wallTime : t.wallTime = s.wallTime
  ponrst : t.ponrst = s.ponrst
  baseStrap : t.baseStrap = s.baseStrap
  prioStrap : t.prioStrap = s.prioStrap
  lastGranted : t.lastGranted = s.lastGranted
  lines : t.lines = s.lines
  storeOut : t.storeOut = s.storeOut
  pending : t.pending = s.pending

theorem TakeOnly.refl (s : State) : TakeOnly s s :=
  ⟨rfl, rfl, rfl, rfl, rfl, rfl, rfl, rfl⟩

theorem TakeOnly.trans {s t u : State} (h : TakeOnly s t) (k : TakeOnly t u) : TakeOnly s u :=
    ⟨k.wallTime.trans h.wallTime, k.ponrst.trans h.ponrst, k.baseStrap.trans h.baseStrap, k.prioStrap.trans
    h.prioStrap, k.lastGranted.trans h.lastGranted, k.lines.trans h.lines, k.storeOut.trans h.storeOut,
    k.pending.trans h.pending⟩

theorem PostOnly.toTakeOnly {s t : State} (h : PostOnly s t) : TakeOnly s t :=
  ⟨h.wallTime, h.ponrst, h.baseStrap, h.prioStrap, h.lastGranted, h.lines, h.storeOut, h.pending⟩

theorem FillOnly.toTakeOnly {s t : State} (h : FillOnly s t) : TakeOnly s t :=
  ⟨h.wallTime, h.ponrst, h.baseStrap, h.prioStrap, h.lastGranted, h.lines, h.storeOut, h.pending⟩

theorem WalkOnly.toTakeOnly {s t : State} (h : WalkOnly s t) : TakeOnly s t :=
  ⟨h.wallTime, h.ponrst, h.baseStrap, h.prioStrap, h.lastGranted, h.lines, h.storeOut, h.pending⟩

theorem MoveOnly.toTakeOnly {s t : State} (h : MoveOnly s t) : TakeOnly s t :=
  ⟨h.wallTime, h.ponrst, h.baseStrap, h.prioStrap, h.lastGranted, h.lines, h.storeOut, h.pending⟩

theorem SwitchOnly.toTakeOnly {s t : State} (h : SwitchOnly s t) : TakeOnly s t :=
  ⟨h.wallTime, h.ponrst, h.baseStrap, h.prioStrap, h.lastGranted, h.lines, h.storeOut, h.pending⟩

/-- A fold keeps a reflexive and transitive relation that each of its steps keeps. -/
theorem foldl_keeps {α σ : Type} {R : σ → σ → Prop} (refl : ∀ s, R s s) (trans : ∀ {s t u}, R s t → R t u → R s u)
    (f : σ → α → σ) (h : ∀ s x, R s (f s x)) (l : List α) (s : σ) : R s (l.foldl f s) := by
  induction l generalizing s with
  | nil => exact refl s
  | cons x xs ih => exact trans (h s x) (ih (f s x))

/-- Both branches of a conditional keep a relation. -/
theorem ite_keeps {σ : Type} {R : σ → σ → Prop} {P : Prop} [Decidable P] {s a b : σ} (h : R s a) (k : R s b) :
    R s (if P then a else b) := by
  split
  · exact h
  · exact k

/-! ## The Poster -/

theorem flagIf_only (b : Bool) (i : PostItem) (s : State) : PostOnly s (flagIf b i s) := by constructor <;> rfl
theorem flag_only (i : PostItem) (s : State) : PostOnly s (flag i s) := flagIf_only true i s
theorem postEvent_only (e : Event) (s : State) : PostOnly s (postEvent e s) := by constructor <;> rfl
theorem flagAll_only (l : List PostItem) (s : State) : PostOnly s (flagAll l s) :=
  foldl_keeps PostOnly.refl PostOnly.trans _ (fun s i => flag_only i s) l s

/-! ## The Fill Engine -/

theorem setCount_only (w : WindowId) (n : Nat) (s : State) : FillOnly s (setCount w n s) := by constructor <;> rfl
theorem setChannel_only (c : ChannelId) (ch : Channel) (s : State) : FillOnly s (setChannel c ch s) := by
  constructor <;> rfl
theorem moveChannel_only (c : ChannelId) (st : ChannelState) (s : State) : FillOnly s (moveChannel c st s) :=
  setChannel_only c _ s
theorem entryJoined_only (c : ChannelId) (s : State) : FillOnly s (entryJoined c s) := by
  unfold entryJoined
  split
  · split <;> exact moveChannel_only _ _ _
  · exact .refl s
theorem entryEnded_only (c : ChannelId) (s : State) : FillOnly s (entryEnded c s) := by
  unfold entryEnded
  split
  · exact (moveChannel_only _ _ _).trans (moveChannel_only _ _ _)
  · split
    · exact moveChannel_only _ _ _
    · exact .refl s
theorem emptiedByDiscards_only (c : ChannelId) (s : State) : FillOnly s (emptiedByDiscards c s) := by
  unfold emptiedByDiscards
  simp only
  split
  · exact (moveChannel_only _ _ _).trans (moveChannel_only _ _ _)
  · exact moveChannel_only _ _ _
theorem lowerCause_only (e : ResolveEntry) (s : State) : FillOnly s (lowerCause e s) := by
  unfold lowerCause
  split
  · exact .refl s
  · exact setCount_only _ _ _
theorem lowerCauses_only (es : List ResolveEntry) (s : State) : FillOnly s (lowerCauses es s) :=
  foldl_keeps FillOnly.refl FillOnly.trans _ (fun s e => lowerCause_only e s) es s
theorem exposure_only (l : List ResolveEntry) (s : State) : FillOnly s { s with exposure := l } := by
  constructor <;> rfl
theorem marking_only (l : List BorderEntry) (s : State) : FillOnly s { s with marking := l } := by
  constructor <;> rfl
theorem dropHead_only (c : ChannelId) (s : State) : FillOnly s (dropHead c s) := by
  cases c with
  | zero =>
    simp only [dropHead]
    split
    · exact .refl s
    · exact (exposure_only _ s).trans (lowerCause_only _ _)
  | one => exact marking_only _ s
theorem endCurrent_only (c : ChannelId) (o : LastOutcome) (s : State) : FillOnly s (endCurrent c o s) :=
  ((dropHead_only c s).trans (setChannel_only c _ _)).trans (entryEnded_only c _)
theorem joinExposure_only (es : List ResolveEntry) (s : State) : FillOnly s (joinExposure es s) := by
  unfold joinExposure
  split
  · exact .refl s
  · refine ((exposure_only (s.exposure ++ es) s).trans ?_).trans (entryJoined_only _ _)
    refine foldl_keeps FillOnly.refl FillOnly.trans _ (fun s e => ?_) _ _
    split
    · exact .refl s
    · exact setCount_only _ _ _
theorem joinMarking_only (es : List BorderEntry) (s : State) : FillOnly s (joinMarking es s) := by
  unfold joinMarking
  split
  · exact .refl s
  · exact (marking_only _ s).trans (entryJoined_only _ _)
theorem wholePanelFallback_only (p : PanelId) (e : Half) (n : Nat) (s : State) :
    FillOnly s (wholePanelFallback p e n s) := by
  unfold wholePanelFallback
  simp only
  have h := fun l es => (exposure_only l s).trans (lowerCauses_only es { s with exposure := l })
  exact ite_keeps (((h _ _).trans (joinExposure_only _ _)).trans (postEvent_only _ _).toFillOnly)
    ((h _ _).trans (postEvent_only _ _).toFillOnly)
theorem fillAtSwitch_only (p : PanelId) (l : Layout) (s : State) : FillOnly s (fillAtSwitch p l s) := by
  unfold fillAtSwitch
  simp only
  split
  · exact joinExposure_only _ _
  · exact wholePanelFallback_only _ _ _ _
theorem markStale_only (src : SourceId) (s : State) : FillOnly s (markStale src s) := by
  unfold markStale
  simp only
  split
  · exact (joinMarking_only _ _).trans (postEvent_only _ _).toFillOnly
  · exact joinMarking_only _ _
theorem setRowsDone_only (c : ChannelId) (n : Nat) (s : State) : FillOnly s (setRowsDone c n s) := by
  cases c <;> simp only [setRowsDone] <;> split
  · exact .refl s
  · exact exposure_only _ s
  · exact .refl s
  · exact marking_only _ s
theorem beginRow_only (c : ChannelId) (n : Nat) (s : State) : FillOnly s (beginRow c n s) :=
  (setRowsDone_only c _ s).trans (setChannel_only c _ _)
theorem discardExposure_only (l : List ResolveEntry) (s : State) : FillOnly s (discardExposure l s) := by
  induction l generalizing s with
  | nil => exact exposure_only _ s
  | cons e rest ih =>
    simp only [discardExposure]
    split
    · exact exposure_only _ s
    · exact ((exposure_only rest s).trans (lowerCause_only _ _)).trans (ih _)
theorem discardHeads_only (c : ChannelId) (s : State) : FillOnly s (discardHeads c s) := by
  cases c <;> simp only [discardHeads]
  · exact discardExposure_only _ s
  · split <;> exact marking_only _ s
theorem startEntry_only (c : ChannelId) (s : State) : FillOnly s (startEntry c s) := by
  unfold startEntry
  simp only
  split
  · exact (discardHeads_only c s).trans (emptiedByDiscards_only c _)
  · exact (((discardHeads_only c s).trans (setChannel_only c _ _)).trans (setRowsDone_only c 0 _)).trans
      (beginRow_only c 0 _)
theorem answered_only (c : ChannelId) (s : State) : FillOnly s (answered c s) := setChannel_only c _ s
theorem channelFault_only (c : ChannelId) (o : LastOutcome) (s : State) : FillOnly s (channelFault c o s) := by
  unfold channelFault
  simp only
  split
  · exact (answered_only c s).trans (endCurrent_only c o _)
  · exact answered_only c s
theorem channels_only (a b : Channel) (s : State) : FillOnly s { s with channel0 := a, channel1 := b } := by
  constructor <;> rfl
theorem clearFills_only (s : State) : FillOnly s (clearFills s) := by
  unfold clearFills
  simp only
  have h : FillOnly s { s with exposure := [], marking := [] } := by constructor <;> rfl
  exact ((h.trans (lowerCauses_only s.exposure _)).trans (channels_only _ _ _)).trans (flag_only _ _).toFillOnly
theorem resetFills_only (s : State) : FillOnly s (resetFills s) := by constructor <;> rfl

/-! ## The queue and the pass-through path -/

theorem answer_only (t : Txn) (st : Status) (s : State) : WalkOnly s (answer t st s) := by constructor <;> rfl
theorem setQueue_only (q : List Record) (s : State) : WalkOnly s (setQueue q s) := by constructor <;> rfl
theorem enqueue_only (r : Record) (s : State) : WalkOnly s (enqueue r s) := setQueue_only _ s
theorem enterPass_only (t : Txn) (s : State) : WalkOnly s (enterPass t s) := by
  unfold enterPass
  split <;> constructor <;> rfl
theorem expandFrom_only (n : Nat) (run : Run) (p : Position) (s : State) :
    WalkOnly s (expandFrom n run p s).1 := by
  induction n generalizing p s with
  | zero => exact .refl s
  | succ n ih =>
    unfold expandFrom
    split
    · exact .refl s
    · split
      · exact (enqueue_only _ s).trans (ih _ _)
      · exact .refl s
theorem expandStretch_only (run : Run) (p : Position) (s : State) : WalkOnly s (expandStretch run p s).1 :=
  expandFrom_only _ run p s
theorem finishAperture_only (t : Txn) (src : SourceId) (s : State) : WalkOnly s (finishAperture t src s) := by
  unfold finishAperture
  split
  · exact answer_only _ _ _
  · exact enterPass_only _ _
theorem walkTurns_only (l : List Held) (s : State) : WalkOnly s (walkTurns l s).1 := by
  induction l generalizing s with
  | nil => exact .refl s
  | cons h rest ih =>
    unfold walkTurns
    split
    · exact (finishAperture_only _ _ s).trans (ih _)
    · split
      · exact (enqueue_only _ s).trans (ih _)
      · exact ih s
theorem walkContinue_only (l : List (Held × Bool)) (s : State) : WalkOnly s (walkContinue l s).1 := by
  induction l generalizing s with
  | nil => exact .refl s
  | cons h rest ih =>
    obtain ⟨h, b⟩ := h
    cases b with
    | false => exact ih s
    | true =>
      unfold walkContinue
      have hx := expandStretch_only h.run (placeAfter h.waiting h.place) s
      split
      · next heq => rw [heq] at hx; exact (hx.trans (finishAperture_only _ _ _)).trans (ih _)
      · next heq => rw [heq] at hx; exact hx.trans (ih _)
theorem holds_only (l : List Held) (s : State) : WalkOnly s { s with holds := l } := by constructor <;> rfl
theorem walk_only (s : State) : WalkOnly s (walk s) :=
  ((walkTurns_only s.holds s).trans (walkContinue_only _ _)).trans (holds_only _ _)
theorem purge_only (p : PanelId) (e : Half) (s : State) : WalkOnly s (purge p e s) := by
  unfold purge
  simp only
  refine WalkOnly.trans ?_ (walk_only _)
  split
  · exact .refl s
  · exact setQueue_only _ s

/-! ## Cadence and failover -/

theorem setGate_only (w : WindowId) (g : Gate) (s : State) : MoveOnly s (setGate w g s) := by constructor <;> rfl
theorem armGates_only (ws : List WindowId) (s : State) : MoveOnly s (armGates ws s) :=
  foldl_keeps MoveOnly.refl MoveOnly.trans _ (fun s w => setGate_only w .armed s) ws s
theorem setCadence_only (src : SourceId) (c : Cadence) (s : State) : MoveOnly s (setCadence src c s) := by
  constructor <;> rfl
theorem evaluateIndicators_only (s : State) : MoveOnly s (evaluateIndicators s) := by constructor <;> rfl
theorem setActiveRecord_only (w : WindowId) (r : LayoutRecord) (s : State) : MoveOnly s (setActiveRecord w r s) := by
  constructor <;> rfl
theorem setNextRecord_only (w : WindowId) (r : LayoutRecord) (s : State) : MoveOnly s (setNextRecord w r s) := by
  unfold setNextRecord
  split
  · exact .refl s
  · constructor <;> rfl
theorem choices_only (n : Nat) (s : State) : MoveOnly s { s with choices := n } := by constructor <;> rfl
theorem reportedSources_only (a n : Option (Nat × Nat)) (s : State) : MoveOnly s (reportedSources a n s).2 := by
  unfold reportedSources
  split
  · split
    · exact .refl s
    · exact choices_only _ s
  all_goals exact .refl s
theorem reportMove_only (w : WindowId) (m : Move) (a n : Option (Nat × Nat)) (s : State) :
    MoveOnly s (reportMove w m a n s) := by
  unfold reportMove
  split
  · exact .refl s
  · exact (reportedSources_only a n s).trans (postEvent_only _ _).toMoveOnly
theorem putActive_only (w : WindowId) (o : Option LayoutRecord) (s : State) : MoveOnly s (putActive w o s) := by
  cases o
  · exact .refl s
  · exact setActiveRecord_only _ _ _
theorem putNext_only (w : WindowId) (o : Option LayoutRecord) (s : State) : MoveOnly s (putNext w o s) := by
  cases o
  · exact .refl s
  · exact setNextRecord_only _ _ _
theorem inEitherOrder_only {f g : State → State} (hf : ∀ s, MoveOnly s (f s)) (hg : ∀ s, MoveOnly s (g s))
    (s : State) : MoveOnly s (inEitherOrder f g s) := by
  unfold inEitherOrder
  simp only
  split
  · exact ((choices_only _ s).trans (hf _)).trans (hg _)
  · exact ((choices_only _ s).trans (hg _)).trans (hf _)
theorem reportMoves_only {report : Move → State → State} (h : ∀ m s, MoveOnly s (report m s)) (a n : Option Move)
    (s : State) : MoveOnly s (reportMoves report a n s) := by
  unfold reportMoves
  split
  · exact ite_keeps (h _ s) (inEitherOrder_only (h _) (h _) s)
  · exact h _ s
  · exact h _ s
  · exact .refl s
theorem evaluateWindow_only (only : Option SourceId) (b : Bool) (w : WindowId) (s : State) :
    MoveOnly s (evaluateWindow only b w s) := by
  unfold evaluateWindow
  simp only
  refine MoveOnly.trans ?_ (reportMoves_only (fun m s => reportMove_only w m _ _ s) _ _ _)
  have h := fun a n => (putActive_only w a s).trans (putNext_only w n _)
  exact ite_keeps ((h _ _).trans (setGate_only w .armed _)) (h _ _)
theorem evaluateFailover_only (only : Option SourceId) (b : Bool) (s : State) :
    MoveOnly s (evaluateFailover only b s) :=
  foldl_keeps MoveOnly.refl MoveOnly.trans _ (fun s w => evaluateWindow_only only b w s) _ s
theorem cadenceMoved_only (src : SourceId) (s : State) : MoveOnly s (cadenceMoved src s) :=
  (evaluateFailover_only _ _ s).trans (evaluateIndicators_only _)
theorem cadencesMoved_only (l : List SourceId) (s : State) : MoveOnly s (cadencesMoved l s) :=
  (foldl_keeps MoveOnly.refl MoveOnly.trans _ (fun s src => evaluateFailover_only (some src) true s) l s).trans
    (evaluateIndicators_only _)
theorem releaseFailover_only (i : Initiator) (w : WindowId) (s : State) : MoveOnly s (releaseFailover i w s) := by
  unfold releaseFailover
  simp only
  have h := fun a n => ((putActive_only w a s).trans (putNext_only w n _)).trans (setGate_only w .armed _)
  exact ite_keeps (.refl s) (((h _ _).trans (reportedSources_only _ _ _)).trans (postEvent_only _ _).toMoveOnly)
theorem staleEffects_only (src : SourceId) (c : CadenceState) (s : State) : MoveOnly s (staleEffects src c s) := by
  unfold staleEffects
  simp only
  refine MoveOnly.trans (MoveOnly.trans ?_ (inEitherOrder_only (fun s => (markStale_only src s).toMoveOnly)
    (fun s => evaluateFailover_only (some src) true s) _)) (evaluateIndicators_only _)
  split
  · exact .refl s
  · exact (postEvent_only _ _).toMoveOnly
theorem tickSources_only (s : State) : MoveOnly s (tickSources s) := by
  unfold tickSources
  simp only
  refine MoveOnly.trans (MoveOnly.trans ?_ (foldl_keeps MoveOnly.refl MoveOnly.trans _
    (fun s src => setCadence_only src _ s) _ _))
    (foldl_keeps MoveOnly.refl MoveOnly.trans _ (fun s src => staleEffects_only src _ s) _ _)
  constructor <;> rfl
theorem cadenceFrame_only (src : SourceId) (s : State) : MoveOnly s (cadenceFrame src s) := by
  unfold cadenceFrame
  simp only
  split
  · exact setCadence_only _ _ s
  · refine MoveOnly.trans ?_ (cadenceMoved_only _ _)
    split
    · exact (setCadence_only _ _ s).trans (postEvent_only _ _).toMoveOnly
    · exact setCadence_only _ _ s
theorem openGates_only (src : SourceId) (s : State) : MoveOnly s (openGates src s) := by
  refine foldl_keeps MoveOnly.refl MoveOnly.trans _ (fun s w => ?_) _ s
  simp only
  split
  · exact setGate_only _ _ _
  · exact .refl s
theorem awaitAll_only (s : State) : MoveOnly s (awaitAll s) :=
  (foldl_keeps MoveOnly.refl MoveOnly.trans _ (fun s src => setCadence_only src _ s) _ s).trans
    (cadencesMoved_only _ _)

/-! ## Switching panels -/

theorem setPanelLayout_only (p : PanelId) (c : Copy) (e : Half) (s : State) :
    SwitchOnly s (setPanelLayout p c e s) := by constructor <;> rfl
theorem setCommit_only (c : Commit) (s : State) : SwitchOnly s (setCommit c s) := by constructor <;> rfl
theorem commit_only (c : Commit) (s : State) : SwitchOnly s { s with commit := c } := by constructor <;> rfl
theorem completeCommit_only (e : CommitState) (o : CommandOutcome) (s : State) :
    SwitchOnly s (completeCommit e o s) := by
  unfold completeCommit
  split
  · exact .refl s
  · refine SwitchOnly.trans (SwitchOnly.trans ?_ (postEvent_only _ _).toSwitchOnly) (commit_only _ _)
    refine SwitchOnly.trans ?_ (setCommit_only _ _)
    refine SwitchOnly.trans ?_ (foldl_keeps SwitchOnly.refl SwitchOnly.trans _
      (fun s p => setPanelLayout_only p .active _ s) _ _)
    refine SwitchOnly.trans ?_ (flagAll_only _ _).toSwitchOnly
    constructor <;> rfl
theorem movePanel_only (p : PanelId) (l : Layout) (s : State) : SwitchOnly s (movePanel p l s) :=
  (((setPanelLayout_only p .next l.epoch s).trans (purge_only p l.epoch _).toSwitchOnly).trans
    (fillAtSwitch_only p l _).toSwitchOnly).trans (setCommit_only _ _)
theorem completeIfLast_only (e : CommitState) (o : CommandOutcome) (s : State) :
    SwitchOnly s (completeIfLast e o s) :=
  ite_keeps (completeCommit_only e o s) (.refl s)
theorem switchPanel_only (e : CommitState) (o : CommandOutcome) (p : PanelId) (s : State) :
    SwitchOnly s (switchPanel e o p s) := by
  unfold switchPanel
  split
  · exact .refl s
  · exact ite_keeps ((movePanel_only p _ s).trans (completeIfLast_only e o _)) (.refl s)
theorem reportLate_only (p : PanelId) (s : State) : SwitchOnly s (reportLate p s) :=
  (commit_only _ s).trans (postEvent_only _ _).toSwitchOnly
theorem switchLate_only (p : PanelId) (s : State) : SwitchOnly s (switchLate p s) := by
  unfold switchLate
  split
  · exact (reportLate_only p s).trans (switchPanel_only _ _ p _)
  · exact .refl s
theorem expireSwitchLimit_only (s : State) : SwitchOnly s (expireSwitchLimit s) :=
  foldl_keeps SwitchOnly.refl SwitchOnly.trans _ (fun s p => switchLate_only p s) _ s
theorem forceCommit_only (s : State) : SwitchOnly s (forceCommit s) :=
  foldl_keeps SwitchOnly.refl SwitchOnly.trans _ (fun s p => switchPanel_only _ _ p s) _ s

/-! ## Taking a transaction -/

theorem take_fields {s t : State} (a : t.wallTime = s.wallTime) (b : t.ponrst = s.ponrst) (c : t.baseStrap = s.baseStrap)
    (d : t.prioStrap = s.prioStrap) (e : t.lastGranted = s.lastGranted) (f : t.lines = s.lines)
    (g : t.storeOut = s.storeOut) (h : t.pending = s.pending) : TakeOnly s t := ⟨a, b, c, d, e, f, g, h⟩
theorem inEitherOrder_takeOnly {f g : State → State} (hf : ∀ s, TakeOnly s (f s)) (hg : ∀ s, TakeOnly s (g s))
    (s : State) : TakeOnly s (inEitherOrder f g s) := by
  unfold inEitherOrder
  simp only
  split
  · exact ((choices_only _ s).toTakeOnly.trans (hf _)).trans (hg _)
  · exact ((choices_only _ s).toTakeOnly.trans (hg _)).trans (hf _)
theorem updateIrq_only (s : State) : TakeOnly s (updateIrq s) := by constructor <;> rfl
theorem poster_only (p : Poster) (s : State) : PostOnly s { s with poster := p } := by constructor <;> rfl
theorem advanceProducer_only (s : State) : TakeOnly s (advanceProducer s) := by constructor <;> rfl
theorem consumerWritten_only (s : State) : TakeOnly s (consumerWritten s) := by constructor <;> rfl
theorem setOwner_only (w : WindowId) (o : Owner) (s : State) : TakeOnly s (setOwner w o s) := by constructor <;> rfl
theorem setAperture_only (src : SourceId) (a : Option Aperture) (s : State) : TakeOnly s (setAperture src a s) := by
  constructor <;> rfl
theorem setSync_only (p : PanelId) (r : SyncRecord) (s : State) : TakeOnly s (setSync p r s) := by constructor <;> rfl
theorem frameStart_only (src : SourceId) (s : State) : TakeOnly s (frameStart src s) := by
  refine TakeOnly.trans ?_ (inEitherOrder_only (cadenceFrame_only src) (openGates_only src) _).toTakeOnly
  constructor <;> rfl
theorem liveOverrun_only (i : Initiator) (run : Run) (r : Record) (s : State) : TakeOnly s (liveOverrun i run r s) := by
  unfold liveOverrun
  split
  · exact .refl s
  · constructor <;> rfl
theorem expandNew_only (t : Txn) (run : Run) (s : State) : TakeOnly s (expandNew t run s) := by
  unfold expandNew
  have hx := (expandStretch_only run Position.first s).toTakeOnly
  split
  · next heq => rw [heq] at hx; exact hx.trans (finishAperture_only _ _ _).toTakeOnly
  · next heq =>
    rw [heq] at hx
    split
    · exact (hx.trans (liveOverrun_only _ _ _ _)).trans (finishAperture_only _ _ _).toTakeOnly
    · exact hx.trans (holds_only _ _).toTakeOnly
theorem takeAperture_only (t : Txn) (src : SourceId) (a : Aperture) (s : State) :
    TakeOnly s (takeAperture t src a s) := by
  unfold takeAperture
  simp only
  split
  · exact (frameStart_only src s).trans (expandNew_only _ _ _)
  · exact expandNew_only _ _ _
theorem snoop_only (p : PanelId) (t : Txn) (s : State) : TakeOnly s (snoop p t s) := by
  unfold snoop
  simp only
  split
  · exact (setSync_only _ _ _).trans (switchPanel_only _ _ p _).toTakeOnly
  · exact setSync_only _ _ _
theorem becomeUnsynced_only (p : PanelId) (n : Nat) (s : State) : TakeOnly s (becomeUnsynced p n s) := by
  unfold becomeUnsynced
  simp only
  split
  · exact .refl s
  · exact ((setSync_only _ _ s).trans (postEvent_only _ _).toTakeOnly).trans (switchPanel_only _ _ p _).toTakeOnly
theorem acceptEnable_only (src : SourceId) (s : State) : TakeOnly s (acceptEnable src s) := by
  unfold acceptEnable
  simp only
  refine TakeOnly.trans ?_ (cadenceMoved_only _ _).toTakeOnly
  refine TakeOnly.trans ?_ (armGates_only _ _).toTakeOnly
  exact (setAperture_only _ _ s).trans (setCadence_only _ _ _).toTakeOnly
theorem requestEnable_only (i : Initiator) (src : SourceId) (s : State) : TakeOnly s (requestEnable i src s) := by
  unfold requestEnable
  split
  · exact (postEvent_only _ _).toTakeOnly
  · exact acceptEnable_only _ _
theorem disableSource_only (src : SourceId) (s : State) : TakeOnly s (disableSource src s) := by
  unfold disableSource
  simp only
  refine TakeOnly.trans (TakeOnly.trans ?_ (setCadence_only _ _ _).toTakeOnly) (cadenceMoved_only _ _).toTakeOnly
  constructor <;> rfl
theorem enableWordWritten_only (i : Initiator) (src : SourceId) (s : State) :
    TakeOnly s (enableWordWritten i src s) := by
  unfold enableWordWritten
  split
  · exact requestEnable_only _ _ _
  · exact disableSource_only _ _
  · exact .refl s
theorem latchSync_only (g g' : Geometry) (p : PanelId) (s : State) : TakeOnly s (latchSync g g' p s) := by
  unfold latchSync
  split
  · split
    · exact becomeUnsynced_only _ _ _
    · exact .refl s
  · exact .refl s
  · exact (setSync_only _ _ s).trans (flag_only _ _).toTakeOnly
theorem latchGeometry_only (s : State) : TakeOnly s (latchGeometry s) := by
  unfold latchGeometry
  simp only
  refine TakeOnly.trans (TakeOnly.trans ?_ (foldl_keeps TakeOnly.refl TakeOnly.trans _
    (fun s p => latchSync_only _ _ p s) _ _)) (clearFills_only _).toTakeOnly
  constructor <;> rfl
theorem requestEffect_only (i : Initiator) (w : WindowId) (n : Nat) (s : State) :
    TakeOnly s (requestEffect i w n s) := by
  unfold requestEffect
  split
  · split
    · exact setOwner_only _ _ _
    · exact .refl s
  · exact setOwner_only _ _ _
  · split
    · exact setOwner_only _ _ _
    · split
      · exact .refl s
      · exact (setOwner_only _ _ s).trans (postEvent_only _ _).toTakeOnly
  · exact .refl s
theorem reportExhausted_only (s : State) : TakeOnly s (reportExhausted s) := by
  unfold reportExhausted
  split
  · constructor <;> rfl
  · exact .refl s
theorem quarantineAll_only (s : State) : TakeOnly s (quarantineAll s) := by
  unfold quarantineAll
  simp only
  refine TakeOnly.trans (TakeOnly.trans ?_ (flagIf_only _ _ _).toTakeOnly) (reportExhausted_only _)
  constructor <;> rfl
theorem quarantineTag_only (t : Tag) (s : State) : TakeOnly s (quarantineTag t s) := by
  refine TakeOnly.trans (TakeOnly.trans ?_ (flag_only _ _).toTakeOnly) (reportExhausted_only _)
  constructor <;> rfl
theorem abandonCommit_only (s : State) : TakeOnly s (abandonCommit s) := by
  unfold abandonCommit
  split
  · exact (((setCommit_only _ s).trans (postEvent_only _ _).toSwitchOnly).trans (commit_only _ _)).toTakeOnly
  · exact .refl s
theorem resetQueue_only (s : State) : TakeOnly s (resetQueue s) := by constructor <;> rfl
theorem resetLayouts_only (s : State) : TakeOnly s (resetLayouts s) := by constructor <;> rfl
theorem resetOwners_only (s : State) : TakeOnly s (resetOwners s) := by
  refine foldl_keeps TakeOnly.refl TakeOnly.trans _ (fun s w => ?_) _ s
  exact ite_keeps (.refl s) (setOwner_only _ _ _)
theorem resetPoster_only (s : State) : TakeOnly s (resetPoster s) := by constructor <;> rfl
theorem wallReset_only (e : Event) (s : State) : TakeOnly s (wallReset e s) := by
  unfold wallReset
  simp only
  refine TakeOnly.trans (TakeOnly.trans ?_ (resetPoster_only _)) (postEvent_only _ _).toTakeOnly
  refine TakeOnly.trans (TakeOnly.trans ?_ (resetOwners_only _)) (awaitAll_only _).toTakeOnly
  refine TakeOnly.trans (TakeOnly.trans ?_ (resetLayouts_only _)) (resetFills_only _).toTakeOnly
  exact (inEitherOrder_takeOnly abandonCommit_only quarantineAll_only s).trans (resetQueue_only _)
theorem acceptInRun_only (n : Half) (s : State) : TakeOnly s (acceptInRun n s) := by
  unfold acceptInRun
  simp only
  refine TakeOnly.trans (TakeOnly.trans ?_ (evaluateFailover_only _ _ _).toTakeOnly)
    (foldl_keeps TakeOnly.refl TakeOnly.trans _ (fun s p => ?_) _ _)
  · unfold beginCommit
    simp only
    refine TakeOnly.trans (TakeOnly.trans ?_ (armGates_only _ _).toTakeOnly) (setCommit_only _ _).toTakeOnly
    constructor <;> rfl
  · split
    · exact (switchPanel_only _ _ p s).toTakeOnly
    · exact .refl s
theorem commitInSetup_only (i : Initiator) (n : Half) (s : State) : TakeOnly s (commitInSetup i n s) := by
  unfold commitInSetup
  simp only
  refine TakeOnly.trans ?_ (postEvent_only _ _).toTakeOnly
  refine TakeOnly.trans ?_ (evaluateFailover_only _ _ _).toTakeOnly
  refine TakeOnly.trans ?_ (setCommit_only _ _).toTakeOnly
  refine TakeOnly.trans ?_ (foldl_keeps TakeOnly.refl TakeOnly.trans _
    (fun s p => (setPanelLayout_only p .active _ s).toTakeOnly) _ _)
  refine TakeOnly.trans (TakeOnly.trans ?_ (flagAll_only _ _).toTakeOnly) (armGates_only _ _).toTakeOnly
  constructor <;> rfl
theorem commandCommit_only (i : Initiator) (n : Half) (s : State) : TakeOnly s (commandCommit i n s).1 := by
  unfold commandCommit
  split
  · exact .refl s
  · split
    · exact ((setCommit_only _ s).trans (postEvent_only _ _).toSwitchOnly).toTakeOnly
    · split
      · dsimp only
        exact acceptInRun_only _ _
      · dsimp only
        exact commitInSetup_only _ _ _
theorem commandRun_only (i : Initiator) (n : Half) (s : State) : TakeOnly s (commandRun i n s).1 := by
  unfold commandRun
  split
  · exact .refl s
  · split
    · exact .refl s
    · refine TakeOnly.trans ?_ (awaitAll_only _).toTakeOnly
      refine TakeOnly.trans (TakeOnly.trans (latchGeometry_only s) ?_) (postEvent_only _ _).toTakeOnly
      constructor <;> rfl
theorem commandSetup_only (i : Initiator) (n : Half) (s : State) : TakeOnly s (commandSetup i n s).1 := by
  unfold commandSetup
  split
  · exact .refl s
  · refine TakeOnly.trans ?_ (awaitAll_only _).toTakeOnly
    refine TakeOnly.trans (TakeOnly.trans (forceCommit_only s).toTakeOnly ?_) (postEvent_only _ _).toTakeOnly
    constructor <;> rfl
theorem commandAction_only (i : Initiator) (n : Nat) (q a : Half) (s : State) :
    TakeOnly s (commandAction i n q a s).1 := by
  unfold commandAction
  split
  · exact commandCommit_only _ _ _
  · exact commandRun_only _ _ _
  · exact commandSetup_only _ _ _
  · exact wallReset_only _ _
  · exact (clearFills_only s).toTakeOnly
  · unfold commandReleaseFailover
    split
    · simp only
      split
      · exact .refl s
      · exact (releaseFailover_only _ _ _).toTakeOnly
    · exact .refl s
  · exact .refl s
theorem setResult_only (r : CommandResult) (s : State) : TakeOnly s (setResult r s) := by constructor <;> rfl
theorem runCommand_only (i : Initiator) (s : State) : TakeOnly s (runCommand i s) := by
  unfold runCommand
  simp only
  refine TakeOnly.trans ?_ (setResult_only _ _)
  exact commandAction_only _ _ _ _ s
theorem wordEffect_only (i : Initiator) (m : Shadow) (w : ControlWord) (s : State) :
    TakeOnly s (wordEffect i m w s) := by
  unfold wordEffect
  split
  · exact updateIrq_only s
  split
  · exact (evaluateIndicators_only s).toTakeOnly
  split
  · exact runCommand_only _ _
  split
  · exact consumerWritten_only s
  split
  · unfold sourceEffect
    split
    · exact enableWordWritten_only _ _ _
    · unfold bucketThresholdWritten
      simp only
      split
      · exact (setCadence_only _ _ _).toTakeOnly
      · exact .refl s
    · exact .refl s
  · split
    · exact requestEffect_only _ _ _ _
    · exact .refl s
theorem shadowPhase_only (l : List ControlWord) (s : State) : TakeOnly s (shadowPhase l s) := by constructor <;> rfl
theorem reportRefused_only (i : Initiator) (l : List ControlWord) (s : State) : PostOnly s (reportRefused i l s) := by
  cases l
  · exact .refl s
  · exact postEvent_only _ _
theorem effectsPhase_only (i : Initiator) (m : Shadow) (l : List ControlWord) (s : State) :
    TakeOnly s (effectsPhase i m l s) :=
  foldl_keeps TakeOnly.refl TakeOnly.trans _ (fun s' w => wordEffect_only i m w s') l s
theorem concludeControl_only (t : Txn) (r a : List ControlWord) (s : State) :
    TakeOnly s (concludeControl t r a s) :=
  ite_keeps (answer_only _ _ _).toTakeOnly (enterPass_only _ _).toTakeOnly
theorem takeWords_only (t : Txn) (l : List ControlWord) (s : State) : TakeOnly s (takeWords t l s) :=
  (((reportRefused_only _ _ s).toTakeOnly.trans (shadowPhase_only _ _)).trans (effectsPhase_only _ _ _ _)).trans
    (concludeControl_only _ _ _ _)
theorem takeControl_only (t : Txn) (s : State) : TakeOnly s (takeControl t s) := takeWords_only _ _ s
theorem take_only (t : Txn) (s : State) : TakeOnly s (take t s) := by
  unfold take
  split
  · unfold takeMalformed
    split
    · exact (postEvent_only _ _).toTakeOnly.trans (answer_only _ _ _).toTakeOnly
    · exact (enterPass_only _ _).toTakeOnly
  · split
    · exact takeControl_only _ _
    · exact takeAperture_only _ _ _ _
    · exact (snoop_only _ _ _).trans (enterPass_only _ _).toTakeOnly
    · exact (enterPass_only _ _).toTakeOnly

/-! ## Answers of the store port -/

theorem postEnded_only (off : Nat) (s : State) : TakeOnly s (postEnded off s) := by
  unfold postEnded
  split
  · exact .refl s
  · constructor <;> rfl
theorem originFault_only (o : OwnWrite) (l : LastOutcome) (s : State) : TakeOnly s (originFault o l s) := by
  unfold originFault
  split
  · exact .refl s
  · exact (channelFault_only _ _ _).toTakeOnly
  · exact postEnded_only _ _
theorem originDone_only (o : OwnWrite) (s : State) : TakeOnly s (originDone o s) := by
  unfold originDone
  split
  · exact .refl s
  · exact (answered_only _ _).toTakeOnly
  · exact postEnded_only _ _
theorem setTag_only (t : Tag) (e : TagState) (s : State) : TakeOnly s (setTag t e s) := by constructor <;> rfl
theorem ownResponse_only (b : Byte) (st : Status) (s : State) : TakeOnly s (ownResponse b st s) := by
  unfold ownResponse
  split
  · simp only
    split
    · exact .refl s
    · constructor <;> rfl
    · split
      · exact (setTag_only _ _ s).trans (originDone_only _ _)
      · refine TakeOnly.trans ?_ (originFault_only _ _ _)
        exact ite_keeps ((setTag_only _ .free s).trans (postEvent_only _ _).toTakeOnly) (setTag_only _ .free s)
  · exact .refl s
theorem storePortResponse_only (r : Response) (s : State) : TakeOnly s (storePortResponse r s) := by
  unfold storePortResponse
  split
  · exact ownResponse_only _ _ _
  · constructor <;> rfl
theorem expireTag_only (t : Tag) (s : State) : TakeOnly s (expireTag t s) := by
  unfold expireTag
  split
  · simp only
    have h := fun o => (quarantineTag_only t s).trans (originFault_only o .timeout (quarantineTag t s))
    split
    · exact (h _).trans (postEvent_only _ _).toTakeOnly
    · exact h _
  · exact .refl s

end Sys2Proof.Machine
end

