-- ==== Sys2Proof/Laws/Ports.lean ====
section
/-! SUPPORT. The ingest port's lines, and the words of a whole-word control write: what taking one does once every word
is accepted. -/

namespace Sys2Proof.Machine

/-! ## The lines -/

/-- With no transaction that can be taken, the port takes none. -/
theorem serve_of_settled {s : State} (h : readyInitiators s = []) : serve s = s := by
  unfold serve
  split
  · rfl
  · cases waitingCount s with
    | zero => rfl
    | succ n => simp [serveLines, nextReady, h]

/-- Which initiators are ready depends on the lines, the holds and the waits for the path alone. -/
theorem readyInitiators_congr {s t : State} (hl : t.lines = s.lines) (hh : t.holds = s.holds)
    (hw : t.passWait = s.passWait) : readyInitiators t = readyInitiators s := by
  simp [readyInitiators, takingBlocked, hl, hh, hw]

/-- After a step that leaves the lines, the holds and the waits as they were, a settled port stays as it is. -/
theorem serve_same {s t : State} (h : readyInitiators s = []) (hl : t.lines = s.lines) (hh : t.holds = s.holds)
    (hw : t.passWait = s.passWait) : serve t = t :=
  serve_of_settled ((readyInitiators_congr hl hh hw).trans h)

/-- An arrival that can be taken at once is taken. -/
theorem arrive_taken {s : State} {t : Txn} (h : canTake s t.initiator = true) : arrive t s = serve (take t s) := by
  simp [arrive, h]

/-- An arrival that cannot be taken waits at the end of its initiator's line. -/
theorem arrive_waits {s : State} {t : Txn} (h : canTake s t.initiator = false) :
    arrive t s = { s with lines := put s.lines t.initiator (s.lines[t.initiator] ++ [t]) } := by
  simp [arrive, h]

/-- A transaction joins the FIFO at once while there is room and none waits for it. -/
theorem enterPass_room {s : State} (t : Txn) (h : s.passFifo.length < Config.fifoCapacity) (h' : s.passWait = []) :
    enterPass t s = { s with passFifo := s.passFifo ++ [t] } := by
  simp [enterPass, h, h']

/-! ## Bytes and words -/

@[simp] theorem wordBytes_length (w : Word) : (wordBytes w).length = 4 := rfl

@[simp] theorem wordOf_byteOf (w : Word) : wordOf (byteOf w 0) (byteOf w 1) (byteOf w 2) (byteOf w 3) = w := by
  apply BitVec.eq_of_getLsbD_eq
  intro i hi
  simp only [wordOf, byteOf, BitVec.getLsbD_append, BitVec.getLsbD_extractLsb']
  by_cases h0 : i < 8
  · simp [h0]
  · by_cases h1 : i < 16
    · simp [h0, show i - 8 < 8 by omega, show 8 + (i - 8) = i by omega]
    · by_cases h2 : i < 24
      · simp [h0, show ¬ i - 8 < 8 by omega, show i - 8 - 8 < 8 by omega, show 16 + (i - 8 - 8) = i by omega]
      · simp [h0, show ¬ i - 8 < 8 by omega, show ¬ i - 8 - 8 < 8 by omega, show i - 8 - 8 - 8 < 8 by omega,
          show 24 + (i - 8 - 8 - 8) = i by omega]

theorem bytesOf_length (ws : List Word) : (bytesOf ws).length = 4 * ws.length := by
  induction ws with
  | nil => rfl
  | cons w ws ih => simp [bytesOf] at ih ⊢; omega

theorem getD_append_after {α : Type} (l l' : List α) (n : Nat) (d : α) (h : l.length ≤ n) :
    (l ++ l').getD n d = l'.getD (n - l.length) d := by
  simp [List.getD_eq_getElem?_getD, List.getElem?_append_right h]

theorem bytesOf_getD (ws : List Word) (k j : Nat) (hk : k < ws.length) (hj : j < 4) :
    (bytesOf ws).getD (4 * k + j) 0 = byteOf ws[k] j := by
  induction ws generalizing k with
  | nil => simp at hk
  | cons w ws ih =>
    cases k with
    | zero =>
      simp only [bytesOf, List.flatMap_cons, wordBytes]
      match j, hj with
      | 0, _ => rfl
      | 1, _ => rfl
      | 2, _ => rfl
      | 3, _ => rfl
    | succ k =>
      have h := ih k (by simpa using hk)
      simp only [bytesOf, List.flatMap_cons, List.getElem_cons_succ] at h ⊢
      rw [getD_append_after _ _ _ _ (by simp; omega), ← h]
      congr 1
      simp
      omega

theorem strobeOn_controlTxn (s : State) (f : Sender) (off : Nat) (bytes : List Byte) (i : Nat) :
    strobeOn (controlTxn s f off bytes) i = decide (i < bytes.length) := by
  by_cases h : i < bytes.length <;> simp [strobeOn, controlTxn, List.getD_eq_getElem?_getD, h]

/-- The control words of a write of these words from an offset on. -/
def wordsAt (off : Nat) (ws : List Word) : List ControlWord :=
  (List.range ws.length).map fun k => ⟨k, off + 4 * k, ws.getD k 0⟩

/-- The words a whole-word control write covers: all of them, with the values it carries. -/
theorem coveredWords_controlTxn (m : Shadow) (s : State) (f : Sender) (off : Nat) (ws : List Word) :
    coveredWords m (controlTxn s f off (bytesOf ws)) off
      = wordsAt off ws := by
  have hlen : (controlTxn s f off (bytesOf ws)).length / 4 = ws.length := by
    show (bytesOf ws).length / 4 = _
    rw [bytesOf_length]; omega
  have hall : ∀ k ∈ List.range ws.length, isCovered (controlTxn s f off (bytesOf ws)) k = true := by
    intro k hk
    have := List.mem_range.mp hk
    simp only [isCovered, strobeOn_controlTxn, bytesOf_length]
    simp; omega
  unfold coveredWords
  rw [hlen, List.filter_eq_self.mpr hall]
  apply List.map_congr_left
  intro k hk
  have hk' : k < ws.length := List.mem_range.mp hk
  have hb : ∀ j, j < 4 → mergedByte m (controlTxn s f off (bytesOf ws)) off (4 * k + j) = byteOf ws[k] j := by
    intro j hj
    have h := bytesOf_getD ws k j hk' hj
    simp only [mergedByte, strobeOn_controlTxn, bytesOf_length]
    rw [if_pos (by simp; omega)]
    exact h
  simp only [ControlWord.mk.injEq, true_and]
  rw [show 4 * k = 4 * k + 0 from rfl, hb 0 (by omega), hb 1 (by omega), hb 2 (by omega), hb 3 (by omega), wordOf_byteOf]
  simp [List.getD_eq_getElem?_getD, hk']

end Sys2Proof.Machine
end

