-- ==== Sys2Proof/Laws/Control.lean ====
section
/-! SUPPORT. What taking a whole-word control write of a console does once no word of it is refused: the shadow takes
its bytes, its words have their effects in ascending order, and the write is passed unchanged. -/

namespace Sys2Proof.Machine

/-! ## The shadow -/

theorem shadowWriteBytes_append (m : Shadow) (off : Nat) (a b : List Byte) :
    shadowWriteBytes m off (a ++ b) = shadowWriteBytes (shadowWriteBytes m off a) (off + a.length) b := by
  induction a generalizing m off with
  | nil => rfl
  | cons x xs ih =>
    simp only [List.cons_append, shadowWriteBytes, List.length_cons, ih]
    congr 1
    omega

/-- The byte just written reads back. -/
theorem shadowRead_write_self (m : Shadow) (a : Nat) (b : Byte) (h : shadowWf m = true) :
    shadowRead (shadowWrite m a b) a = b := by
  have key : ∀ (m : Shadow) (low : Nat), shadowWfFrom low m = true → (∀ k, low ≤ k → True) →
      shadowRead (shadowWrite m a b) a = b := by
    intro m
    induction m with
    | nil => intro low _ _; unfold shadowWrite; split <;> simp_all [shadowRead]
    | cons e rest ih =>
      obtain ⟨k, c⟩ := e
      intro low hw _
      simp only [shadowWfFrom, Bool.and_eq_true, decide_eq_true_eq] at hw
      unfold shadowWrite
      split
      · split
        · next hb =>
          have hr : ∀ (l : Shadow) (lo : Nat), shadowWfFrom lo l = true → a < lo → shadowRead l a = powerOnByte a := by
            intro l
            induction l with
            | nil => intros; rfl
            | cons e' r' ih' =>
              obtain ⟨k', c'⟩ := e'
              intro lo hl ha
              simp only [shadowWfFrom, Bool.and_eq_true, decide_eq_true_eq] at hl
              simp only [shadowRead]
              rw [if_neg (by omega)]
              exact ih' (k' + 1) hl.2 (by omega)
          simp only [shadowRead]
          rw [if_neg (by omega), hr rest (k + 1) hw.2 (by omega), hb]
        · simp [shadowRead]
      · split
        · next hk =>
          split
          · next hb =>
            subst hk
            have hr : ∀ (l : Shadow) (lo : Nat), shadowWfFrom lo l = true → a < lo →
                shadowRead l a = powerOnByte a := by
              intro l
              induction l with
              | nil => intros; rfl
              | cons e' r' ih' =>
                obtain ⟨k', c'⟩ := e'
                intro lo hl ha
                simp only [shadowWfFrom, Bool.and_eq_true, decide_eq_true_eq] at hl
                simp only [shadowRead]
                rw [if_neg (by omega)]
                exact ih' (k' + 1) hl.2 (by omega)
            rw [hr rest (a + 1) hw.2 (by omega), hb]
          · simp [shadowRead]
        · next hlt hne =>
          simp only [shadowRead]
          rw [if_neg (by omega)]
          exact ih (k + 1) hw.2 (fun _ _ => trivial)
  exact key m 0 h (fun _ _ => trivial)

/-- Every other byte reads as before. -/
theorem shadowRead_write_other (m : Shadow) (a x : Nat) (b : Byte) (h : x ≠ a) :
    shadowRead (shadowWrite m a b) x = shadowRead m x := by
  induction m with
  | nil => unfold shadowWrite; split <;> simp [shadowRead]; omega
  | cons e rest ih =>
    obtain ⟨k, c⟩ := e
    unfold shadowWrite
    split
    · split
      · rfl
      · simp only [shadowRead]; rw [if_neg (by omega)]
    · split
      · next hk =>
        subst hk
        split
        · simp only [shadowRead]; rw [if_neg (by omega)]
        · simp only [shadowRead]; rw [if_neg (by omega), if_neg (by omega)]
      · simp only [shadowRead, ih]

/-- A write keeps the canonical form. -/
theorem shadowWrite_wf (m : Shadow) (a : Nat) (b : Byte) (h : shadowWf m = true) :
    shadowWf (shadowWrite m a b) = true := by
  have key : ∀ (m : Shadow) (low : Nat), shadowWfFrom low m = true → low ≤ a →
      shadowWfFrom low (shadowWrite m a b) = true := by
    intro m
    induction m with
    | nil => intro low _ hl; unfold shadowWrite; split <;> simp_all [shadowWfFrom]
    | cons e rest ih =>
      obtain ⟨k, c⟩ := e
      intro low hw hl
      have hw' := hw
      simp only [shadowWfFrom, Bool.and_eq_true, decide_eq_true_eq] at hw
      unfold shadowWrite
      split
      · split
        · exact hw'
        · next hb => simp [shadowWfFrom, hl, hb, hw.1.2, hw.2]; omega
      · split
        · next hk =>
          subst hk
          have hweak : ∀ (l : Shadow) (lo lo' : Nat), lo' ≤ lo → shadowWfFrom lo l = true →
              shadowWfFrom lo' l = true := by
            intro l lo lo' hle hx
            cases l with
            | nil => rfl
            | cons e' r' =>
              simp only [shadowWfFrom, Bool.and_eq_true, decide_eq_true_eq] at hx ⊢
              exact ⟨⟨by omega, hx.1.2⟩, hx.2⟩
          split
          · exact hweak rest (a + 1) low (by omega) hw.2
          · next hb => simp [shadowWfFrom, hl, hb, hw.2]
        · next h1 h2 =>
          simp only [shadowWfFrom, Bool.and_eq_true, decide_eq_true_eq]
          exact ⟨hw.1, ih (k + 1) hw.2 (by omega)⟩
  exact key m 0 h (Nat.zero_le _)

theorem shadowWriteBytes_wf (m : Shadow) (off : Nat) (bs : List Byte) (h : shadowWf m = true) :
    shadowWf (shadowWriteBytes m off bs) = true := by
  induction bs generalizing m off with
  | nil => exact h
  | cons b bs ih => exact ih _ _ (shadowWrite_wf m off b h)

theorem shadowRead_writeBytes_other (m : Shadow) (off x : Nat) (bs : List Byte) (h : x < off ∨ off + bs.length ≤ x) :
    shadowRead (shadowWriteBytes m off bs) x = shadowRead m x := by
  induction bs generalizing m off with
  | nil => rfl
  | cons b bs ih =>
    simp only [List.length_cons] at h
    rw [shadowWriteBytes, ih _ _ (by omega), shadowRead_write_other _ _ _ _ (by omega)]

theorem shadowRead_writeBytes (m : Shadow) (off i : Nat) (bs : List Byte) (hm : shadowWf m = true)
    (h : i < bs.length) : shadowRead (shadowWriteBytes m off bs) (off + i) = bs[i] := by
  induction bs generalizing m off i with
  | nil => simp at h
  | cons b bs ih =>
    cases i with
    | zero =>
      rw [shadowWriteBytes, shadowRead_writeBytes_other _ _ _ _ (by omega)]
      exact shadowRead_write_self m off b hm
    | succ i =>
      rw [shadowWriteBytes, show off + (i + 1) = off + 1 + i by omega]
      exact ih _ _ _ (shadowWrite_wf m off b hm) (by simpa using h)

/-- The shadow after reset, with nothing listed, is in canonical form. -/
theorem reset_shadowWf : shadowWf State.reset.shadow = true := rfl

/-! ## Classification -/

theorem controlBase_lt (s : State) : controlBase s + Config.controlBytes < 2 ^ 35 := by
  have := s.baseStrap.isLt
  simp only [controlBase, Config.strapUnit, Config.controlBytes]
  omega

theorem controlTxn_address (s : State) (f : Sender) (off : Nat) (bs : List Byte) (h : off < Config.controlBytes) :
    (controlTxn s f off bs).address.toNat = controlBase s + off := by
  have := controlBase_lt s
  simp only [controlTxn, controlAddress, BitVec.toNat_ofNat]
  omega

theorem controlOffset_controlTxn (s : State) (f : Sender) (off : Nat) (bs : List Byte)
    (h : off < Config.controlBytes) : controlOffset s (controlTxn s f off bs) = off := by
  rw [controlOffset, controlTxn_address s f off bs h]
  omega

/-- A whole-word write inside one 256-byte block of the control region, of an initiator 0 to 14, is well-formed. -/
theorem malformedReason_controlTxn (s : State) (f : Sender) (off : Nat) (ws : List Word) (hi : f.initiator ≠ 15)
    (h4 : off % 4 = 0) (h0 : 0 < ws.length) (hb : off % 256 + 4 * ws.length ≤ 256)
    (h : off < Config.controlBytes) : malformedReason (controlTxn s f off (bytesOf ws)) = none := by
  have ha := controlTxn_address s f off (bytesOf ws) h
  have hl : (controlTxn s f off (bytesOf ws)).length = 4 * ws.length := bytesOf_length ws
  have hin : (controlTxn s f off (bytesOf ws)).initiator = f.initiator := rfl
  have hbase : controlBase s % 256 = 0 := by simp only [controlBase, Config.strapUnit]; omega
  unfold malformedReason
  rw [hin, hl, ha, if_neg hi, if_neg (by omega), if_neg (by omega), if_neg (by omega), if_neg (by omega)]

theorem classify_controlTxn (s : State) (f : Sender) (off : Nat) (bs : List Byte) (h : off < Config.controlBytes) :
    classify s (controlTxn s f off bs) = .controlWrite := by
  have ha := controlTxn_address s f off bs h
  have hk : (controlTxn s f off bs).kind = .write := rfl
  unfold classify
  rw [hk]
  simp only
  rw [if_pos]
  rw [ha]
  omega

/-! ## Taking the write -/

theorem trimmed_nil (t : Txn) : trimmed t [] = t := by
  have : (t.strobes.mapIdx fun i b => b && !([] : List ControlWord).any fun w => w.index == i / 4) = t.strobes := by
    apply List.ext_getElem <;> simp
  simp only [trimmed, this]

theorem mergeWords (m : Shadow) (off : Nat) (ws : List Word) :
    (wordsAt off ws).foldl mergeWord m = shadowWriteBytes m off (bytesOf ws) := by
  have key : ∀ n, n ≤ ws.length →
      ((List.range n).map fun k => (⟨k, off + 4 * k, ws.getD k 0⟩ : ControlWord)).foldl mergeWord m
        = shadowWriteBytes m off (bytesOf (ws.take n)) := by
    intro n
    induction n with
    | zero => intro _; rfl
    | succ n ih =>
      intro hn
      have hlt : n < ws.length := hn
      rw [List.range_succ, List.map_append, List.foldl_append, ih (by omega), List.take_succ_eq_append_getElem hlt]
      have : bytesOf (ws.take n ++ [ws[n]]) = bytesOf (ws.take n) ++ wordBytes ws[n] := by
        unfold bytesOf
        rw [List.flatMap_append, List.flatMap_singleton]
      rw [this, shadowWriteBytes_append, bytesOf_length, List.length_take, Nat.min_eq_left (by omega)]
      simp [mergeWord, List.getD_eq_getElem?_getD, hlt]
  have h := key ws.length (Nat.le_refl _)
  rw [List.take_length] at h
  exact h

/-- Taking a whole-word control write whose words are all accepted: shadow, effects, passed unchanged. -/
theorem takeControl_accepted (s : State) (f : Sender) (off : Nat) (ws : List Word) (h : off < Config.controlBytes)
    (hacc : ∀ w ∈ wordsAt off ws, wordRefusal s f.initiator w = none) :
    takeControl (controlTxn s f off (bytesOf ws)) s
      = enterPass (controlTxn s f off (bytesOf ws))
          (effectsPhase f.initiator s.shadow (wordsAt off ws)
            { s with shadow := shadowWriteBytes s.shadow off (bytesOf ws) }) := by
  have href : refusedWords s f.initiator (wordsAt off ws) = [] := by
    rw [refusedWords, List.filter_eq_nil_iff]
    intro w hw
    simp [hacc w hw]
  have hfil : acceptedWords s f.initiator (wordsAt off ws) = wordsAt off ws := by
    rw [acceptedWords, List.filter_eq_self]
    intro w hw
    simp [hacc w hw]
  have hin : (controlTxn s f off (bytesOf ws)).initiator = f.initiator := rfl
  rw [takeControl, controlOffset_controlTxn s f off (bytesOf ws) h, coveredWords_controlTxn, takeWords, hin, href, hfil]
  simp only [concludeControl, reportRefused, shadowPhase, mergeWords, trimmed_nil]
  simp

/-- A well-formed transaction of class CONTROL_WRITE is taken as one. -/
theorem take_control {t : Txn} {s : State} (h1 : malformedReason t = none) (h2 : classify s t = .controlWrite) :
    take t s = takeControl t s := by
  unfold take
  rw [h1]
  simp only [h2]

/-- A whole-word control write that arrives and can be taken is taken as a control write. -/
theorem take_controlTxn (s : State) (f : Sender) (off : Nat) (ws : List Word) (hi : f.initiator ≠ 15)
    (h4 : off % 4 = 0) (h0 : 0 < ws.length) (hb : off % 256 + 4 * ws.length ≤ 256) (h : off < Config.controlBytes) :
    take (controlTxn s f off (bytesOf ws)) s = takeControl (controlTxn s f off (bytesOf ws)) s :=
  take_control (malformedReason_controlTxn s f off ws hi h4 h0 hb h) (classify_controlTxn s f off (bytesOf ws) h)

/-- A console is an initiator 0 to 14. -/
theorem isConsole_ne (s : State) (i : Initiator) (h : isConsole s i = true) : i ≠ 15 := by
  rintro rfl
  simp only [isConsole, isPriority, Bool.or_eq_true, Bool.and_eq_true, decide_eq_true_eq] at h
  rcases h with ⟨_, h⟩ | ⟨h, _⟩ <;> exact absurd h (by decide)

end Sys2Proof.Machine
end

