-- ==== Sys2Proof/Tests/Slice0.lean ====
section
/-! SUPPORT. Tests: the ill-formed terms that WellFormed refuses, the manual's worked examples, one step each, and for each
statement with hypotheses a concrete state and operands that meet them. -/

namespace Sys2Proof.Tests
set_option Elab.async false
open Sys2Proof Sys2Proof.Machine

/-! ## Small states -/

/-- Console 0, the priority console while the PRIO straps read 0. -/
def con : Sender := { initiator := 0, linkTag := 7 }
/-- Console 1. -/
def con1 : Sender := { initiator := 1, linkTag := 8 }

/-- A write of `n` pixels. -/
def pixels (i : Initiator) (a : Address) (n : Nat) : Txn :=
  { kind := .write, initiator := i, linkTag := 3, address := a, length := 4 * n, data := List.replicate (4 * n) 0x11
    strobes := List.replicate (4 * n) true }

/-- A read of 256 bytes. -/
def reading (i : Initiator) (a : Address) : Txn :=
  { kind := .read, initiator := i, linkTag := 4, address := a, length := 256, data := [], strobes := [] }

/-- A SHOWN window of 16 by 8 pixels at the wall's top left, fed by source 3. -/
def shown : LayoutRecord :=
  { window := { Window.blank with
      state := .shown, layer := 1, primary := 3, alternate := some 4, mode := .auto
      cw := 16, ch := 8, dw := 16, dh := 8, fill := 0xFF }
    effective := 3 }

/-- A layout with window 5 alone. -/
def layout (epoch : Half) : Layout := { records := put (Vector.replicate 64 LayoutRecord.blank) 5 shown, epoch := epoch }

/-- A working aperture of 16 by 8 pixels. -/
def aperture : Aperture := { base := 0x2000000, pitch := 256, frameWidth := 16, frameHeight := 8 }

/-- In RUN, one panel read by initiator 4, source 3 ENABLED, window 5 shown with an open gate. -/
def wall : State :=
  { State.reset with
    mode := .run
    geometry := { Geometry.powerOn with panels := Vector.replicate 32 { base := 0x1000000, pitch := 7680, scanout := 4 } }
    apertures := put (Vector.replicate 32 none) 3 (some aperture)
    cadence := put (Vector.replicate 32 (Cadence.zeroed .disabled)) 3 (Cadence.zeroed .awaiting)
    active := layout 0
    gates := put (Vector.replicate 64 .armed) 5 .opened }

/-- The wall with panel 0 in this sync state, last read at time 0. -/
def synced (st : SyncState) : State := { wall with sync := put wall.sync 0 { state := st, lastRead := 0 } }

/-- A commit in flight for panel 0, which is SCANNING. -/
def flight : State :=
  { synced .scanning with
    next := some (layout 1), epochCounter := 1
    commit := { Commit.powerOn with state := .inFlight, number := 9, remaining := 1 } }

/-- A commit in flight for two panels. -/
def flight2 : State :=
  { flight with
    geometry := { wall.geometry with columns := 2 }
    commit := { Commit.powerOn with state := .inFlight, number := 9, remaining := 2 } }

/-- A queued record of a source. -/
def record (src : SourceId) : Record :=
  { window := 5, source := src, panel := 0, epoch := 0, address := 0x1000000, pixels := [{ value := 1, strobes := 15 }] }

/-- The run of a write of two pixels on line 1 of source 3. -/
def run3 : Run := decodeRun wall.shadow 3 aperture (pixels 2 0x2000100 2)

/-- A held write. -/
def held : Held :=
  { txn := pixels 2 0x2000100 2, run := run3, waiting := record 3, place := Position.first, latched := false }

/-- A RESOLVE entry of 16 by 8 pixels, and the same superseded. -/
def entry : ResolveEntry :=
  { panel := 0, x := 0, y := 0, w := 16, h := 8, epoch := 0, cause := some 5, rowsDone := 0 }

/-- Two entries on channel 0's list, the first superseded. -/
def filling : State :=
  { wall with
    exposure := [{ entry with epoch := 7 }, entry]
    fillCount := put wall.fillCount 5 2
    channel0 := { Channel.powerOn with state := .active } }

/-- One write of a row. -/
def fillWrite : FillWrite := { panel := 0, address := 0x1000000, count := 2, colour := 9 }

/-- The current entry of channel 0, with all rows issued. -/
def painted : State :=
  { filling with
    exposure := [{ entry with rowsDone := 8 }]
    channel0 := { Channel.powerOn with state := .active, current := true } }

/-- Source 3 STALE and a BORDER entry due on channel 1, behind one whose source does not feed its window. -/
def marking : State :=
  { wall with
    cadence := put wall.cadence 3 (Cadence.zeroed .stale)
    marking := [{ panel := 0, window := 6, source := 3, firstLine := 0, lines := 0, rowsDone := 0 },
      { panel := 0, window := 5, source := 3, firstLine := 0, lines := 0, rowsDone := 0 }]
    channel1 := { Channel.powerOn with state := .active } }

/-- With no posted item to write. -/
def quiet (s : State) : State := { s with poster := { s.poster with flags := [] } }

/-- With tag 7 in this state. -/
def tagged (s : State) (t : TagState) : State := { s with tags := put s.tags 7 t }

/-- An allocated event record. -/
def event : EventRecord :=
  { slot := 0, sequence := 1, kind := 8, detail := 0, subject := 0, initiator := 0, time := 0, extra := 0 }

/-! ## WellFormed refuses ill-formed terms -/

theorem test_wf_well_formed_is_not_malformed : (Instr.malformed (pixels 2 0x100 2)).wf = false := by decide +kernel
theorem test_wf_write_without_its_data : (Instr.pass { pixels 2 0x100 2 with data := [] }).wf = false := by decide +kernel
theorem test_wf_write_without_its_strobes : (Instr.pass { pixels 2 0x100 2 with strobes := [] }).wf = false := by decide +kernel
theorem test_wf_read_with_data : (Instr.scanoutRead { reading 4 0 with data := [1] }).wf = false := by decide +kernel
theorem test_wf_pass_across_a_block : (Instr.pass (pixels 2 0xFC 2)).wf = false := by decide +kernel
theorem test_wf_pass_unaligned : (Instr.pass (pixels 2 0x102 1)).wf = false := by decide +kernel
theorem test_wf_pass_too_long : (Instr.pass (pixels 2 0x100 65)).wf = false := by decide +kernel
theorem test_wf_pass_empty : (Instr.pass (pixels 2 0x100 0)).wf = false := by decide +kernel
theorem test_wf_pass_of_the_part : (Instr.pass (pixels 15 0x100 2)).wf = false := by decide +kernel
theorem test_wf_scanout_is_a_read : (Instr.scanoutRead (pixels 2 0x100 2)).wf = false := by decide +kernel
theorem test_wf_aperture_write_is_a_write : (Instr.apertureWrite (reading 2 0x100)).wf = false := by decide +kernel
theorem test_wf_control_write_is_a_write : (Instr.controlWrite (reading 2 0x100)).wf = false := by decide +kernel
theorem test_wf_console_is_not_the_part : (Instr.claim { initiator := 15, linkTag := 0 } 4).wf = false := by decide +kernel
theorem test_wf_unknown_command_is_unnamed : (Instr.unknownCommand con 1 6 0).wf = false := by decide +kernel
theorem test_wf_relay_is_not_the_parts :
    (Instr.responseRelay { initiator := 15, linkTag := 0, status := .done, data := [] }).wf = false := by decide +kernel
theorem test_wf_fault_carries_no_data :
    (Instr.responseRelay { initiator := 2, linkTag := 0, status := .fault, data := [1] }).wf = false := by decide +kernel
theorem test_wf_accepts :
    (Instr.pass (pixels 2 0x100 64)).wf && (Instr.malformed (pixels 2 0xFC 2)).wf && (Instr.unknownCommand con 1 7 0).wf
      = true := by decide +kernel

/-- No row of the table gives bits, so no word spells a command. -/
theorem test_no_word_spells_a_command : decodeTableWord 32 0x12345678 = none := by decide +kernel

/-! ## The manual's worked examples -/

/-- Section 6.9's spans by Chapter 5's formulas: crop 1200, placement 2400, columns 0 to 63 fill 0 to 127. -/
theorem test_spans_of_the_live_overrun_example :
    firstDest 0 1200 2400 = 0 ∧ firstDest 64 1200 2400 = 128 ∧ firstDest 10 720 1440 = 20 ∧ firstDest 11 720 1440 = 22 := by
  decide

/-- Section 3.3's rows: line, first column and kept pixels of two writes of source 7. -/
theorem test_decoding_drops_padding :
    let a : Aperture := { base := 0x21000000, pitch := 5120, frameWidth := 1200, frameHeight := 720 }
    let r := decodeRun [] 7 a (pixels 6 0x21001200 64)
    let q := decodeRun [] 7 a (pixels 6 0x21001300 64)
    (r.line, r.column, r.pixels.length, q.pixels.length) = (0, 1152, 48, 0) := by decide +kernel

/-- Section 9.5, with NT = NNT = 8, BT = 32 and LR = 3, from B = 260: 266 moves the baseline up by one, and three intervals
of 250 re-learn it. -/
theorem test_baseline_drift :
    let m := shadowWriteBytes [] 0x1024 (bytesOf [32, 0x03030808])
    let frames := fun c is => List.foldl (fun c i => baselineRule m 0 c i) c is
    let c := frames { Cadence.zeroed .live with baseline := 260 } [263, 266, 267, 268, 265, 267, 266]
    let d := frames c [250, 250, 250, 252]
    (c.baseline, c.bucket, d.baseline, d.bucket) = (261, 0, 250, 2) := by decide +kernel

/-- Section 9.11: with B = 521, SM = 15625 and HY = 32 the recovery limit is 16114. -/
theorem test_recovery_limit :
    let m := shadowWriteBytes [] 0x101C (bytesOf [15625, 32])
    recoveryLimit m 0 { Cadence.zeroed .stale with baseline := 521 } = 16114 := by decide +kernel

/-- Section 1.5: tag 7 is quarantined 2000 µs after its issue and not before. -/
theorem test_store_timeout_example :
    let s := { tagged wall (.busy 1000000 (.expansion 12 5)) with wallTime := 1001999 }
    timeoutReached s 7 = false ∧ timeoutReached { s with wallTime := 1002000 } 7 = true := by decide +kernel

/-- Section 1.4: with FILL granted last, POST is searched first; with no FREE tag only PASS is eligible. -/
theorem test_grant_rotation :
    let s := { wall with lastGranted := .fill, queue := [record 3], passFifo := [pixels 1 0x100 1] }
    let full := { s with tags := Vector.replicate 32 .quarantined, lastGranted := .pass }
    chosen s = some .post ∧ chosen full = some .pass := by decide +kernel

/-- Section 7.3: 12000 columns from 1280 fail SCALE_RANGE, since 8 × 1280 is 10240. -/
theorem test_scale_range : scaleFails 1280 12000 = true ∧ scaleFails 1280 10240 = false := by decide +kernel

/-- Section 8.10: row 100 of E1 over window 6 and the background is cut into 22 writes, the first of 28 pixels at
0x00400BB990. -/
theorem test_resolve_row_example :
    let w6 : LayoutRecord := { window := { Window.blank with
      state := .shown, layer := 8, primary := 5, dw := 1000, dh := 1080, fill := 0xFF101010 }, effective := 5 }
    let g := { Geometry.powerOn with panels := Vector.replicate 32 { base := 0x40000000, pitch := 7680, scanout := 4 } }
    let s := { State.reset with
      geometry := g, active := { records := put (Vector.replicate 64 LayoutRecord.blank) 6 w6, epoch := 0 } }
    let row := resolveRow s { entry with x := 100, y := 100, w := 1280, h := 720 } 0
    (row.length, row.head?.map (fun w => (w.address, w.count))) = (22, some (0x400BB990, 28)) := by decide +kernel

/-- Section 10.2's claim race: the second console's claim is refused and the first keeps the window. -/
theorem test_claim_of_an_owned_window :
    requestRefusal { State.reset with owners := put State.reset.owners 10 (.owned 3 false) } 7 10 1 = some 5 := by
  decide +kernel

/-- Section 2.6: line 1079 of panel 5 starts at 0x00457E7200. -/
theorem test_last_line_start :
    let g := { Geometry.powerOn with panels := Vector.replicate 32 { base := 0x45000000, pitch := 7680, scanout := 9 } }
    isLastLineStart { State.reset with geometry := g } 0 (reading 9 0x457E7200) = true := by decide +kernel

/-! ## Witnesses -/

theorem settled_of {s : State} (h : readyInitiators s = []) : Settled s := h

theorem inService_of {s : State} (h : s.ponrst = false ∧ readyInitiators s = []) : InService s := ⟨h.1, h.2⟩

theorem arrives_of {s : State} {t : Txn} {c : TrafficClass} (h : readyInitiators s = [] ∧ canTake s t.initiator = true
    ∧ malformedReason t = none ∧ classify s t = c) : Arrives s t c := ⟨h.1, h.2.1, h.2.2.1, h.2.2.2⟩

theorem writes_of {s : State} {f : Sender} (h : readyInitiators s = [] ∧ canTake s f.initiator = true
    ∧ isConsole s f.initiator = true ∧ shadowWf s.shadow = true) : ConsoleWrites s f := ⟨h.1, h.2.1, h.2.2.1, h.2.2.2⟩

theorem commit_of {s : State} (hn : s.next.isSome = true ↔ s.commit.state = .inFlight)
    (hr : s.commit.state = .inFlight → s.mode = .run)
    (hc : s.commit.state = .inFlight → s.commit.remaining = unswitched s ∧ 0 < s.commit.remaining)
    (hp : ∀ p : PanelId, s.selection[p] = .active ∧ s.panelEpoch[p] = s.active.epoch)
    (hg : 1 ≤ gridCount s.geometry ∧ gridCount s.geometry ≤ 32) : CommitCoherent s :=
  ⟨hn, hr, hc, fun p => .inl (hp p), hg⟩

theorem fill_of {s : State} (h : s.exposure.length ≤ 128 ∧ s.marking.length ≤ 64
    ∧ (∀ w : WindowId, s.fillCount[w] = s.exposure.countP (fun e => e.cause == some w) ∧ s.fillCount[w] ≤ 64))
    (h0 : (s.channel0.state = .idle ↔ s.exposure.length = 0) ∧ (s.channel1.state = .idle ↔ s.marking.length = 0))
    (ha : ¬ (s.channel0.state = .active ∧ s.channel1.state = .active))
    (hp : (s.channel0.state = .pending → s.channel1.state = .active)
      ∧ (s.channel1.state = .pending → s.channel0.state = .active))
    (hc : (s.channel0.current = true → s.channel0.state = .active)
      ∧ (s.channel1.current = true → s.channel1.state = .active)) : FillCoherent s where
  exposure := h.1
  marking := h.2.1
  counts := h.2.2
  idle := fun c => match c with
    | .zero => h0.1
    | .one => h0.2
  oneActive := ha
  pending := fun c => match c with
    | .zero => hp.1
    | .one => hp.2
  current := fun c => match c with
    | .zero => hc.1
    | .one => hc.2

theorem exec_answers (c : Instr) (s : State) : ∃ t, exec c s = .next t := by
  cases c <;> exact ⟨_, rfl⟩

theorem step_answers (s : State) : ∃ t, step s = .next t := by
  unfold step
  split
  · exact exec_answers _ _
  · split
    · exact exec_answers _ _
    · exact ⟨_, rfl⟩

theorem wall_settled : Settled wall := settled_of (by decide +kernel)
theorem wall_inService : InService wall := inService_of (by decide +kernel)
theorem reset_writes : ConsoleWrites State.reset con := writes_of (by decide +kernel)
theorem reset_writes1 : ConsoleWrites State.reset con1 := writes_of (by decide +kernel)
theorem wall_writes : ConsoleWrites wall con := writes_of (by decide +kernel)
theorem reset_commit : CommitCoherent State.reset :=
  commit_of (by decide +kernel) (by decide +kernel) (by decide +kernel) (by decide +kernel) (by decide +kernel)
theorem wall_commit : CommitCoherent wall :=
  commit_of (by decide +kernel) (by decide +kernel) (by decide +kernel) (by decide +kernel) (by decide +kernel)
theorem flight_commit : CommitCoherent flight :=
  commit_of (by decide +kernel) (by decide +kernel) (by decide +kernel) (by decide +kernel) (by decide +kernel)
theorem flight2_commit : CommitCoherent flight2 :=
  commit_of (by decide +kernel) (by decide +kernel) (by decide +kernel) (by decide +kernel) (by decide +kernel)
theorem commit_at {s : State} (t : Word) (h : CommitCoherent s) : CommitCoherent { s with wallTime := t } :=
  ⟨h.next, h.running, h.remaining, h.panels, h.grid⟩
theorem commit_queued {s : State} (q : List Instr) (h : CommitCoherent s) : CommitCoherent { s with pending := q } :=
  ⟨h.next, h.running, h.remaining, h.panels, h.grid⟩
theorem reset_fill : FillCoherent State.reset :=
  fill_of (by decide +kernel) (by decide +kernel) (by decide +kernel) (by decide +kernel) (by decide +kernel)
theorem filling_fill : FillCoherent filling :=
  fill_of (by decide +kernel) (by decide +kernel) (by decide +kernel) (by decide +kernel) (by decide +kernel)

/-! ### The block as a machine -/

theorem witness_StepRunsFrontCommand :
    ({ wall with pending := [.cadenceTick, .fillEntryStart] } : State).pending = .cadenceTick :: [.fillEntryStart] := rfl

/-- In reset, with an event due, one microsecond before a tick, and at an ordinary microsecond. -/
theorem witness_IdleStepPassesTime :
    (wall.pending = [] ∧ ({ wall with ponrst := true } : State).ponrst = true)
    ∧ (filling.pending = [] ∧ filling.ponrst = false ∧ dueEvent filling = some .fillEntryStart)
    ∧ (let s := { wall with wallTime := 63 }
       s.ponrst = false ∧ dueEvent s = none ∧ atTick (s.wallTime + 1) = true)
    ∧ (wall.ponrst = false ∧ dueEvent wall = none ∧ atTick (wall.wallTime + 1) = false) := by decide +kernel

theorem witness_CommandsKeepQueueStrapsAndTime :
    (∀ b p, Instr.storeOpportunity ≠ .ponrstRelease b p) ∧ Instr.storeOpportunity ≠ .cadenceTick
      ∧ (∀ src, Instr.storeOpportunity ≠ .staleLimitExpiry src) :=
  ⟨(by intro b p h; cases h), by decide, (by intro src h; cases h)⟩

/-! ### Reset -/

theorem witness_PowerOn : State.reset = State.powerOn 0 0 := rfl

theorem witness_PonrstAssertAndRelease :
    ({ wall with ponrst := true } : State).ponrst = true ∧ (∀ i : Initiator, wall.lines[i] = []) ∧ wall.ponrst = false := by
  decide +kernel

theorem witness_NothingMovesInReset :
    ({ State.reset with ponrst := true } : State).ponrst = true
      ∧ (∀ b p, Instr.storeOpportunity ≠ .ponrstRelease b p)
      ∧ ∃ t, exec .storeOpportunity { State.reset with ponrst := true } = .next t :=
  ⟨rfl, witness_CommandsKeepQueueStrapsAndTime.1, exec_answers _ _⟩

/-! ### Taking traffic -/

theorem witness_ArrivalWaitsInLine :
    canTake { wall with ponrst := true } 2 = false ∧ canTake { wall with holds := [held] } 2 = false
      ∧ Instr.pass (pixels 2 0x100 1) ∈ [Instr.malformed (pixels 2 0x100 1), .pass (pixels 2 0x100 1)] := by
  decide +kernel

/-- Fifteen transactions in the FIFO, and sixteen. -/
theorem witness_PassEntersPath :
    (let s := { wall with passFifo := List.replicate 15 (pixels 1 0x20000 1) }
     Arrives s (pixels 2 0x20000 64) .pass ∧ s.passFifo.length < 16 ∧ s.passWait = [])
    ∧ (let s := { wall with passFifo := List.replicate 16 (pixels 1 0x20000 1) }
       Arrives s (pixels 2 0x20000 64) .pass ∧ ¬ (s.passFifo.length < 16 ∧ s.passWait = [])) :=
  ⟨⟨arrives_of (by decide +kernel), by decide +kernel⟩, arrives_of (by decide +kernel), by decide +kernel⟩

/-- The part's own initiator, a write that touches the control region's last word, one that touches the aperture's last
byte, and one that touches neither. -/
theorem witness_MalformedAnsweredOrPassed :
    Settled wall ∧ canTake wall 15 = true ∧ canTake wall 2 = true ∧ malformedReason (pixels 15 0x100 1) = some 1
    ∧ (malformedReason (pixels 2 0xFFFC 2) = some 5
      ∧ touches (pixels 2 0xFFFC 2) (controlBase wall) (controlBase wall + 65536) = true)
    ∧ (malformedReason (pixels 2 0x20007FE 1) = some 4 ∧ wall.apertures[(3 : SourceId)] = some aperture
      ∧ touches (pixels 2 0x20007FE 1) aperture.base (apertureEnd aperture) = true)
    ∧ (malformedReason (pixels 2 0x20000 65) = some 3
      ∧ touches (pixels 2 0x20000 65) (controlBase wall) (controlBase wall + 65536) = false
      ∧ touches (pixels 2 0x20000 65) aperture.base (apertureEnd aperture) = false) :=
  ⟨wall_settled, by decide +kernel⟩

/-! ### Scanout reads and retrace events -/

/-- A read of line 0, and of the last line while no commit is in flight. -/
theorem witness_ScanoutReadSnooped :
    Arrives wall (reading 4 0x1000000) (.scanoutRead 0) ∧ isLineZero wall 0 (reading 4 0x1000000) = true
    ∧ Arrives (synced .scanning) (reading 4 0x17E7200) (.scanoutRead 0)
    ∧ isLineZero wall 0 (reading 4 0x17E7200) = false ∧ isLastLineStart wall 0 (reading 4 0x17E7200) = true
    ∧ ¬ ((synced .scanning).commit.state = .inFlight) :=
  ⟨arrives_of (by decide +kernel), by decide +kernel, arrives_of (by decide +kernel), by decide +kernel⟩

/-- The last of one panel, the first of two, and none in flight. -/
theorem witness_RetraceEventSwitchesPanel :
    (Arrives flight (reading 4 0x17E7200) (.scanoutRead 0) ∧ CommitCoherent flight
      ∧ flight.sync[(0 : PanelId)].state = .scanning ∧ flight.commit.switched[(0 : PanelId)] = false
      ∧ flight.next = some (layout 1) ∧ flight.commit.remaining = 1)
    ∧ (Arrives flight2 (reading 4 0x17E7200) (.scanoutRead 0) ∧ CommitCoherent flight2
      ∧ flight2.next = some (layout 1) ∧ 1 < flight2.commit.remaining)
    ∧ ¬ ((synced .scanning).commit.state = .inFlight) :=
  ⟨⟨arrives_of (by decide +kernel), flight_commit, by decide +kernel⟩,
    ⟨arrives_of (by decide +kernel), flight2_commit, by decide +kernel⟩, by decide +kernel⟩

/-- The entries of a switch: two that just fit a list of 126 entries; one too many for 127, of which the panel's 87 leave;
and a list full of another panel's entries. Also a window whose count allows one more entry but not two. -/
theorem witness_SwitchFills :
    let s := { flight with commit := { flight.commit with changed := put flight.commit.changed 5 true } }
    let full := fun (n k : Nat) => { s with
      exposure := List.replicate n { entry with panel := 1, cause := none } ++ List.replicate k entry }
    formedEntries s (layout 1) 0 = [{ entry with epoch := 1 }, { entry with epoch := 1 }]
    ∧ Fits (full 126 0) (formedEntries s (layout 1) 0)
    ∧ ¬ Fits (full 40 87) (formedEntries s (layout 1) 0)
    ∧ ((full 40 87).exposure.filter fun e => e.panel != 0).length < 128
    ∧ ¬ Fits (full 128 0) (formedEntries s (layout 1) 0)
    ∧ 128 ≤ ((full 128 0).exposure.filter fun e => e.panel != 0).length
    ∧ ¬ Fits { s with fillCount := put s.fillCount 5 63 } (formedEntries s (layout 1) 0) := by
  unfold Fits
  decide +kernel

/-! ### Aperture writes -/

/-- One record fills the share of source 3; the same in COPY. -/
theorem witness_ApertureWriteExpanded :
    (let s := { wall with queue := List.replicate 63 (record 3) }
     Arrives s (pixels 2 0x2000100 2) (.apertureWrite 3 aperture) ∧ apertureOffset aperture (pixels 2 0x2000100 2) ≠ 0
      ∧ share s 3 + (runRecords s run3).length = 64 ∧ s.queue.length + (runRecords s run3).length ≤ 256
      ∧ (runRecords s run3).length = 1 ∧ apertureMode s.shadow 3 = .divert)
    ∧ (let s := written wall (enableOffset 3) [enableWord true false true]
       Arrives s (pixels 2 0x2000100 2) (.apertureWrite 3 aperture) ∧ apertureMode s.shadow 3 = .copy) :=
  ⟨⟨arrives_of (by decide +kernel), by decide +kernel⟩, arrives_of (by decide +kernel), by decide +kernel⟩

/-- Window 5 shown eight times as wide and twice as high: a run of 16 pixels makes four records of 64 on two rows. -/
def wide (live : Bool) (queue : List Record) : State :=
  { written wall (enableOffset 3) [enableWord true live false] with
    queue := queue
    active := { wall.active with
      records := put wall.active.records 5 { shown with window := { shown.window with dw := 128, dh := 16 } } } }

/-- A STALLABLE write's first record refused by a full share; its third, by the share that the first two fill; a LIVE write's
third, by the queue that the first two fill, as in section 6.9. -/
theorem witness_ApertureWriteHeldOrOverrun :
    let t := pixels 2 0x2000100 16
    let offers := fun s : State => runOffers s (decodeRun s.shadow 3 aperture t)
    (let s := wide false (List.replicate 64 (record 3))
     Arrives s t (.apertureWrite 3 aperture) ∧ apertureOffset aperture t ≠ 0 ∧ (offers s).length = 4
      ∧ offers s = [] ++ (offers s).head (by decide +kernel) :: (offers s).tail
      ∧ s.queue.length < 256 ∧ share s 3 = 64 ∧ sourceClass s.shadow 3 = .stallable)
    ∧ (let s := wide false (List.replicate 62 (record 3))
       Arrives s t (.apertureWrite 3 aperture) ∧ share s 3 + ((offers s).take 2).length = 64
      ∧ s.queue.length + ((offers s).take 2).length < 256)
    ∧ (let s := wide true (List.replicate 10 (record 3) ++ List.replicate 244 (record 6))
       Arrives s t (.apertureWrite 3 aperture) ∧ share s 3 + ((offers s).take 2).length ≤ 64
      ∧ s.queue.length + ((offers s).take 2).length = 256 ∧ sourceClass s.shadow 3 = .live) :=
  ⟨⟨arrives_of (by decide +kernel), by decide +kernel⟩, ⟨arrives_of (by decide +kernel), by decide +kernel⟩,
    arrives_of (by decide +kernel), by decide +kernel⟩

/-- Section 6.9: the write of line 10 makes four records of 64 pixels, on lines 20 and 21 of panel 0, cut at ox 64. -/
theorem test_live_overrun_example :
    let w15 : LayoutRecord := { window := { Window.blank with
      state := .shown, layer := 1, primary := 7, cw := 1200, ch := 720, dw := 2400, dh := 1440 }, effective := 7 }
    let g := { Geometry.powerOn with
      columns := 2, panels := Vector.replicate 32 { base := 0x40000000, pitch := 7680, scanout := 4 } }
    let s := { State.reset with
      geometry := g, active := { records := put (Vector.replicate 64 LayoutRecord.blank) 15 w15, epoch := 0 }
      gates := put State.reset.gates 15 .opened }
    let a : Aperture := { base := 0x21000000, pitch := 5120, frameWidth := 1200, frameHeight := 720 }
    (runOffers s (decodeRun [] 7 a (pixels 6 0x2100C800 64))).map (fun q => (q.1.address, q.1.pixels.length))
      = [(0x40025800, 64), (0x40025900, 64), (0x40027600, 64), (0x40027700, 64)] := by decide +kernel

/-- A frame start while a commit is in flight; one after which the cadence state stays: a LIVE source. -/
theorem witness_FrameStartTaken :
    (Arrives flight (pixels 2 0x2000000 2) (.apertureWrite 3 aperture)
      ∧ apertureOffset aperture (pixels 2 0x2000000 2) = 0 ∧ sourceClass flight.shadow 3 = .stallable
      ∧ flight.commit.state = .inFlight ∧ flight.gates[(6 : WindowId)] = .armed)
    ∧ (let s := { wall with cadence := put wall.cadence 3 (Cadence.zeroed .live), gates := put wall.gates 5 .armed }
       Arrives s (pixels 2 0x2000000 2) (.apertureWrite 3 aperture)
      ∧ (frameRecord s.shadow 3 s.cadence[(3 : SourceId)]).state = s.cadence[(3 : SourceId)].state) :=
  ⟨⟨arrives_of (by decide +kernel), by decide +kernel⟩, arrives_of (by decide +kernel), by decide +kernel⟩

/-- A frame start that moves the state: recovery reaches LIVE, and window 5, on its alternate, fails back. -/
theorem witness_FrameStartMoves :
    let s := { written wall 0x20C4 [0] with
      cadence := put wall.cadence 3 { Cadence.zeroed .recovering with goodCount := 2 }
      active := { wall.active with
        records := put wall.active.records 5 { window := { shown.window with revert := true }, effective := 4 } } }
    Arrives s (pixels 2 0x2000000 2) (.apertureWrite 3 aperture)
      ∧ (frameRecord s.shadow 3 s.cadence[(3 : SourceId)]).state = .live ∧ eventEnabled s.shadow 7 = true ∧ unread s ≤ 125
      ∧ (let t := { s with cadence := put s.cadence 3 (Cadence.zeroed .live) }
         switches 3 t s 5 = true ∧ copiesWhere (failsBack 3 t) s 5 = 1 ∧ switches 3 t s 6 = false) :=
  ⟨arrives_of (by decide +kernel), by decide +kernel⟩

/-- The cases of a frame start at their boundaries, with B = 20, NT = NNT = 8, BT = 32, LR = RC = 3, SM = 15625 and
HY = 32: intervals 28 and 12, 27 and 13, a bucket that reaches BT and one that reaches −BT, and the recovery limit. -/
theorem witness_FrameMoves :
    let c : Cadence := { Cadence.zeroed .live with baseline := 20, bucket := 25 }
    20 + upperNoise [] 3 ≤ 28 ∧ 12 + lowerNoise [] 3 ≤ 20 ∧ 27 < 20 + upperNoise [] 3 ∧ 20 < 13 + lowerNoise [] 3
      ∧ lowRun [] 3 ≤ 2 + 1 ∧ ¬ (lowRun [] 3 ≤ 1 + 1)
      ∧ (bucketThreshold [] 3 : Int) ≤ c.bucket + ((27 : Int) - 20)
      ∧ (-25 : Int) + ((13 : Int) - 20) ≤ -(bucketThreshold [] 3 : Int)
      ∧ 1 ≤ c.baseline ∧ c.baseline ≤ 65535 ∧ -(bucketThreshold [] 3 : Int) < c.bucket ∧ c.bucket < bucketThreshold [] 3
      ∧ 15613 ≤ max 1 (c.baseline + staleMargin [] 3 - hysteresis [] 3)
      ∧ max 1 (c.baseline + staleMargin [] 3 - hysteresis [] 3) < 15614 ∧ recoveryCount [] 3 ≤ 2 + 1 := by decide +kernel

theorem witness_RecordsAreSound :
    (nextRecord wall run3 Position.first).isSome = true ∧ wall.geometry.panels[(0 : PanelId)].base % 256 = 0
      ∧ wall.geometry.panels[(0 : PanelId)].pitch % 256 = 0 := by decide +kernel

/-- The widest crop at the largest scale, and its last column. -/
theorem witness_SamplingSpansAreExact :
    0 < 4096 ∧ scaleFails 4096 32768 = false ∧ firstDest 4095 4096 32768 ≤ 32767 ∧ sampled 32767 4096 32768 = 4095 := by
  decide

/-! ### Control writes -/

/-- The last word of a FREE window's record, and the first of an owned one. -/
theorem witness_StagingWriteShadowed :
    ConsoleWrites State.reset con ∧ State.reset.owners[(63 : WindowId)] = .free ∧ 0 < [(7 : Word)].length
      ∧ 15 + [(7 : Word)].length ≤ 16
      ∧ ConsoleWrites { State.reset with owners := put State.reset.owners 4 (.owned 0 true) } con :=
  ⟨reset_writes, by decide +kernel, by decide, by decide, writes_of (by decide +kernel)⟩

/-- The last byte of the last word alone; a write that covers no word, by who is no console. -/
theorem witness_PartlyStrobedWrites :
    (ConsoleWrites State.reset con ∧ State.reset.owners[(63 : WindowId)] = .free ∧ 15 < 16
      ∧ (false || false || false || true) = true)
    ∧ (let s := written State.reset 0x18 [1]
       let t := { controlTxn s con1 0x100 (bytesOf [0x40001]) with strobes := List.replicate 4 false }
       Arrives s t .controlWrite ∧ (∀ b ∈ t.strobes, b = false) ∧ isConsole s 1 = false) :=
  ⟨⟨reset_writes, by decide +kernel⟩, arrives_of (by decide +kernel), by decide +kernel⟩

/-- NOT_CONSOLE, PART_POSTED at the last word of the status block, SETUP_ONLY at the console mask, NOT_OWNER at both ends
of a record; and the trimmed write. -/
theorem witness_ControlWriteRefusedOrTrimmed :
    (let s := written State.reset 0x18 [1]
     Settled s ∧ canTake s 1 = true ∧ isConsole s 1 = false)
    ∧ (Settled wall ∧ canTake wall 0 = true ∧ (0 : Initiator) ≠ 15 ∧ isConsole wall 0 = true
      ∧ (isPartPosted 0x200 = true ∧ isPartPosted 0x3FC = true ∧ isPartPosted 0x3004 = true)
      ∧ (wall.mode = .run ∧ isSetupOnly 0x18 = true ∧ isSetupOnly 0x9FC = true))
    ∧ (let s := { State.reset with owners := put State.reset.owners 63 (.owned 1 false) }
       Settled s ∧ canTake s 0 = true ∧ s.owners[(63 : WindowId)] = .owned 1 false ∧ (1 : Initiator) ≠ 0
        ∧ 0x2000 + 64 * 63 ≤ 0x2FC0 ∧ 0x2FFC < 0x2000 + 64 * 63 + 64)
    ∧ ConsoleWrites State.reset con1 :=
  ⟨⟨settled_of (by decide +kernel), by decide +kernel⟩, ⟨wall_settled, by decide +kernel⟩,
    ⟨settled_of (by decide +kernel), by decide +kernel⟩, reset_writes1⟩

/-- Three words across windows 0 and 1, window 1 another's: the first is accepted in part, the second refused, the third not
covered. Two words of window 1 alone: both refused. -/
theorem witness_ControlWriteTrimmed :
    let s := { State.reset with owners := put State.reset.owners 1 (.owned 1 false) }
    let t := { controlTxn s con 0x203C (bytesOf [1, 2, 3]) with
      strobes := [true, false, true, true, false, false, false, true, false, false, false, false] }
    let refused := controlTxn s con 0x2040 (bytesOf [2, 3])
    (Arrives s t .controlWrite ∧ t.data.length = t.length ∧ t.strobes.length = t.length
      ∧ CoversWord t 1 ∧ WordRefused s t 1 4 ∧ (∀ n, ¬ WordRefused s t 0 n) ∧ CoversWord t 0 ∧ ¬ CoversWord t 2
      ∧ shadowWf s.shadow = true ∧ ShadowOnly 0x203C (mergedCode s t 0))
    ∧ (Arrives s refused .controlWrite ∧ CoversWord refused 0 ∧ WordRefused s refused 0 4 ∧ CoversWord refused 1
      ∧ WordRefused s refused 1 4 ∧ ∀ j, 2 ≤ j → ¬ CoversWord refused j) :=
  ⟨⟨arrives_of (by decide +kernel), by decide +kernel, by decide +kernel, ⟨3, by decide, by decide +kernel⟩,
      wordRefused_iff.1 (by decide +kernel), not_wordRefused_iff.1 (by decide +kernel), ⟨0, by decide, by decide +kernel⟩,
      by
        rintro ⟨j, hj, h⟩
        revert j
        decide +kernel,
      by decide +kernel, by unfold ShadowOnly; decide +kernel⟩,
    arrives_of (by decide +kernel), ⟨0, by decide, by decide +kernel⟩, wordRefused_iff.1 (by decide +kernel),
    ⟨0, by decide, by decide +kernel⟩, wordRefused_iff.1 (by decide +kernel), by
      intro j hj h
      have := coversWord_lt h
      have e : (controlTxn { State.reset with owners := put State.reset.owners 1 (.owned 1 false) } con 0x2040
        (bytesOf [2, 3])).strobes.length = 8 := by decide +kernel
      omega⟩

/-! ### Sources -/

/-- An ENABLED source, a source whose aperture lies on the control region, and geometry words that pass. -/
theorem witness_EnableRequestDecided :
    (ConsoleWrites wall con ∧ wall.apertures[(3 : SourceId)] = some aperture)
    ∧ (let v := written State.reset (enableOffset 31) [enableWord true true false]
       ConsoleWrites State.reset con ∧ State.reset.apertures[(31 : SourceId)] = none
        ∧ FirstFailure (EnableFails v 31 (shadowAperture v.shadow 31)) 5 none)
    ∧ (let g : ApertureWords := { base := 0x2000000, pitch := 256, frameWidth := 64, frameHeight := 1 }
       let v := written State.reset (sourceOffset 31) (geometryWords g ++ [enableWord true false false])
       NoFailure (EnableFails v 31 (shadowAperture v.shadow 31))) :=
  ⟨⟨wall_writes, by decide +kernel⟩, ⟨reset_writes, by decide +kernel, (enableRefusal_iff.1 _ _).1 (by decide +kernel)⟩,
    enableRefusal_iff.2.1 (by decide +kernel)⟩

/-- With a commit in flight whose NEXT has a window that source 31 feeds. -/
theorem witness_EnableRequestInFlight :
    let l : Layout := { layout 1 with records := put (layout 1).records 7 { shown with effective := 31 } }
    let s := { flight with next := some l }
    let g : ApertureWords := { base := 0x4000000, pitch := 256, frameWidth := 64, frameHeight := 1 }
    let v := written s (sourceOffset 31) (geometryWords g ++ [enableWord true false false])
    ConsoleWrites s con ∧ s.apertures[(31 : SourceId)] = none
      ∧ NoFailure (EnableFails v 31 (shadowAperture v.shadow 31))
      ∧ s.next = some l ∧ l.records[(7 : WindowId)].window.state ≠ .unused
      ∧ l.records[(7 : WindowId)].effective = (31 : SourceId).val :=
  ⟨writes_of (by decide +kernel), by decide +kernel, enableRefusal_iff.2.1 (by decide +kernel), by decide +kernel⟩

/-- R37: an aperture that shares one byte with ENABLED source 3's is refused by check 6, naming source 3; in RUN one on panel
0's frame buffer by check 7. -/
theorem test_enable_overlaps :
    let at_ := fun base => written wall (sourceOffset 31)
      (geometryWords { base := base, pitch := 256, frameWidth := 64, frameHeight := 1 } ++ [enableWord true false false])
    enableRefusal (at_ 0x2000700) 31 = some (6, some 3) ∧ enableRefusal (at_ 0x2000800) 31 = none
      ∧ enableRefusal (at_ 0x1000000) 31 = some (7, some 0) := by decide +kernel

theorem witness_SourceDisabled :
    ConsoleWrites wall con ∧ wall.apertures[(3 : SourceId)] = some aperture ∧ wall.apertures[(4 : SourceId)] = none :=
  ⟨wall_writes, by decide +kernel⟩

/-! ### Window ownership -/

/-- The window FREE; owned by the writer; owned by another; each for the priority console and for another. -/
theorem witness_ClaimRequestsDecided :
    (ConsoleWrites State.reset con ∧ 4 ≤ 255 ∧ 255 < 256 ∧ State.reset.owners[(63 : WindowId)] = .free
      ∧ isPriority State.reset con.initiator = true)
    ∧ (ConsoleWrites State.reset con1 ∧ isPriority State.reset con1.initiator = false)
    ∧ (let s := { State.reset with owners := put State.reset.owners 0 (.owned 0 true) }
       ConsoleWrites s con ∧ s.owners[(0 : WindowId)] = .owned con.initiator true)
    ∧ (let s := { State.reset with owners := put State.reset.owners 0 (.owned 1 false) }
       ConsoleWrites s con ∧ s.owners[(0 : WindowId)] = .owned 1 false ∧ (1 : Initiator) ≠ con.initiator) :=
  ⟨⟨reset_writes, by decide +kernel⟩, ⟨reset_writes1, by decide +kernel⟩,
    ⟨writes_of (by decide +kernel), by decide +kernel⟩, writes_of (by decide +kernel), by decide +kernel⟩

/-! ### Commands -/

theorem witness_CommandsWithoutEffect :
    (ConsoleWrites State.reset con ∧ namedCommand 0 = false ∧ namedCommand 7 = false ∧ State.reset.mode = .setup)
    ∧ (ConsoleWrites flight con ∧ flight.mode = .run ∧ flight.commit.state = .inFlight) :=
  ⟨⟨reset_writes, by decide +kernel⟩, writes_of (by decide +kernel), by decide +kernel⟩

/-- Window 2 SHOWN with an empty crop: the first check that it fails is the second. -/
theorem witness_CommitRefused :
    let s := written State.reset 0x2080 [2]
    ConsoleWrites s con ∧ ¬ (s.mode = .run ∧ s.commit.state = .inFlight)
      ∧ StageRefused s.shadow { window := 2, reason := 2, other := none } :=
  ⟨writes_of (by decide +kernel), by decide +kernel, (validate_iff.1 _).1 (by decide +kernel)⟩

/-- Section 7.3's STAGE after its first correction: window 7 has the layer of window 5. -/
theorem test_layer_duplicate :
    let m := shadowWriteBytes (shadowWriteBytes [] 0x2140 (bytesOf [0x0E000702, 0x101, 0, 0x04380780, 0, 0, 1920, 1080]))
      0x21C0 (bytesOf [0x00000701, 0, 0, 0x02580320, 0, 0, 800, 600])
    validate m = some { window := 7, reason := 5, other := some 5 } := by decide +kernel

/-- Window 9 staged in AUTO mode, from source 3, which is STALE, to source 4, which is LIVE. -/
def staged (s : State) : State :=
  { written s 0x2240 [0x04030702, 0x101, 0, 0x00080010, 0, 0, 16, 8] with
    cadence := put (put wall.cadence 3 (Cadence.zeroed .stale)) 4 (Cadence.zeroed .live) }

theorem witness_CommitAcceptedInRun :
    (let s := staged (synced .waiting)
     ConsoleWrites s con ∧ CommitCoherent s ∧ s.mode = .run ∧ s.commit.state ≠ .inFlight ∧ StageValid s.shadow
      ∧ isGrid s.geometry 0 = true ∧ s.sync[(0 : PanelId)].state ≠ .unsynced ∧ failsOverAtCommit s 9 = true)
    ∧ (ConsoleWrites wall con ∧ CommitCoherent wall ∧ StageValid wall.shadow
      ∧ ∀ p : PanelId, isGrid wall.geometry p = true → wall.sync[p].state = .unsynced) :=
  ⟨⟨writes_of (by decide +kernel),
      commit_of (by decide +kernel) (by decide +kernel) (by decide +kernel) (by decide +kernel) (by decide +kernel),
      by decide +kernel, by decide +kernel, validate_iff.2.1 (by decide +kernel), by decide +kernel⟩,
    wall_writes, wall_commit, validate_iff.2.1 (by decide +kernel), by decide +kernel⟩

theorem witness_CommitTakenInSetup :
    (ConsoleWrites State.reset con ∧ State.reset.mode = .setup ∧ StageValid State.reset.shadow ∧ State.reset.next = none)
    ∧ (let s := staged State.reset
       ConsoleWrites s con ∧ StageValid s.shadow ∧ failsOverAtCommit s 9 = true) :=
  ⟨⟨reset_writes, by decide +kernel, validate_iff.2.1 (by decide +kernel), by decide +kernel⟩,
    writes_of (by decide +kernel), validate_iff.2.1 (by decide +kernel), by decide +kernel⟩

/-- With the power-on panel record (scanout initiator 15) check 8 fails; with scanout initiator 4 all pass, where a panel
leaves the grid and panel 0, which is SCANNING, has its record changed. -/
theorem witness_RunCommandDecided :
    (ConsoleWrites State.reset con ∧ State.reset.mode = .setup
      ∧ ∃ n a b, runCheck State.reset = some (n, a, b) ∧ RunRefused State.reset (shadowGeometry State.reset.shadow) n a b)
    ∧ (let s := { written (State.powerOn 2 0) 0x80C [4] with
        geometry := { Geometry.powerOn with columns := 2 }
        sync := put State.reset.sync 0 { state := .scanning, lastRead := 5 } }
       ConsoleWrites s con ∧ CommitCoherent s ∧ FillCoherent s ∧ s.mode = .setup ∧ RunPasses s (shadowGeometry s.shadow)
        ∧ isGrid s.geometry 1 = true ∧ isGrid (shadowGeometry s.shadow) 1 = false
        ∧ (shadowGeometry s.shadow).panels[(0 : PanelId)] ≠ s.geometry.panels[(0 : PanelId)]
        ∧ eventEnabled s.shadow 5 = true ∧ unread s ≤ 223) :=
  ⟨⟨reset_writes, by decide +kernel, 8, some 0, none, by decide +kernel, runCheck_iff.1 _ _ _ |>.1 (by decide +kernel)⟩,
    writes_of (by decide +kernel),
    commit_of (by decide +kernel) (by decide +kernel) (by decide +kernel) (by decide +kernel) (by decide +kernel),
    fill_of (by decide +kernel) (by decide +kernel) (by decide +kernel) (by decide +kernel) (by decide +kernel),
    by decide +kernel, runCheck_iff.2.1 (by decide +kernel), by decide +kernel⟩

theorem witness_SetupCommandForcesCommit :
    (ConsoleWrites flight con ∧ CommitCoherent flight ∧ flight.mode = .run ∧ flight.commit.state = .inFlight
      ∧ flight.next = some (layout 1))
    ∧ (ConsoleWrites wall con ∧ CommitCoherent wall ∧ wall.mode = .run ∧ wall.commit.state ≠ .inFlight) :=
  ⟨⟨writes_of (by decide +kernel), flight_commit, by decide +kernel⟩, wall_writes, wall_commit, by decide +kernel⟩

/-- One window of the priority console, one of another, the rest FREE; a commit in flight; in reset and not. -/
theorem witness_WallResetClearsTheWall :
    let s := { flight with owners := put (put flight.owners 5 (.owned 0 true)) 6 (.owned 1 false) }
    SourcesCoherent s ∧ s.owners[(5 : WindowId)] = .owned 0 true ∧ (¬ ∃ o, s.owners[(6 : WindowId)] = .owned o true)
      ∧ s.ponrst = false ∧ ConsoleWrites s con ∧ ({ s with ponrst := true } : State).ponrst = true :=
  ⟨⟨by decide +kernel, fun i j a b hne hi hj => by
      have one : ∀ k : SourceId, k ≠ 3 → flight.apertures[k] = none := by decide +kernel
      by_cases h : i = 3
      · have hj' : flight.apertures[j] = some b := hj
        rw [one j (fun e => hne (h.trans e.symm))] at hj'
        exact nomatch hj'
      · have hi' : flight.apertures[i] = some a := hi
        rw [one i h] at hi'
        exact nomatch hi'⟩,
    by decide +kernel, by decide +kernel, rfl, writes_of (by decide +kernel), rfl⟩

/-- A staged window that the reset clears, and room for WALL_RESET behind two other events. -/
theorem witness_WallResetReports :
    let s := { written flight 0x2180 [2, 0x101] with
      poster := { flight.poster with producer := 252, allocation := 252 } }
    shadowWf s.shadow = true ∧ (¬ ∃ o, s.owners[(6 : WindowId)] = .owned o true) ∧ stageWindow s.shadow 6 ≠ Window.blank
      ∧ eventEnabled s.shadow 21 = true ∧ unread s ≤ 252 ∧ (evWallResetCommand 0 1).kind = 21 ∧ evWallResetPin.kind = 21 := by decide +kernel

theorem witness_CancelFillsEmptiesLists :
    ConsoleWrites filling con ∧ FillCoherent filling ∧ filling.fillCount[(5 : WindowId)] ≠ 0 :=
  ⟨writes_of (by decide +kernel), filling_fill, by decide +kernel⟩

/-- Arguments 64 and 63; a window of another console; a window on its primary; a window on its alternate in ACTIVE. -/
theorem witness_ReleaseFailoverReturns :
    (ConsoleWrites wall con ∧ 64 ≤ (64 : Half).toNat ∧ (63 : Half).toNat = (63 : WindowId).val
      ∧ ownedByOther wall 0 63 = false ∧ wall.active.records[(63 : WindowId)].window.state = .unused ∧ wall.next = none)
    ∧ (let s := { wall with owners := put wall.owners 5 (.owned 1 false) }
       ConsoleWrites s con ∧ ownedByOther s con.initiator 5 = true)
    ∧ (let s := { wall with active := { wall.active with records := put wall.active.records 5 { shown with effective := 4 } } }
       ConsoleWrites s con ∧ ownedByOther s con.initiator 5 = false
        ∧ s.active.records[(5 : WindowId)].window.state ≠ .unused
        ∧ s.active.records[(5 : WindowId)].effective ≠ s.active.records[(5 : WindowId)].window.primary
        ∧ eventEnabled s.shadow 11 = true ∧ unread s ≠ 255) :=
  ⟨⟨wall_writes, by decide +kernel⟩, ⟨writes_of (by decide +kernel), by decide +kernel⟩, writes_of (by decide +kernel),
    by decide +kernel⟩

/-! ### Parameter writes -/

/-- The overflow flag set: 254 unread records after the write, and 255. -/
theorem witness_ConsumerIndexTaken :
    ConsoleWrites State.reset con
    ∧ (let s := { State.reset with poster := { Poster.powerOn with overflow := true, allocation := 255, dropped := 3 } }
       ConsoleWrites s con ∧ (s.poster.allocation - (1 : Word).extractLsb' 0 8).toNat = 254
        ∧ (s.poster.allocation - (0x100 : Word).extractLsb' 0 8).toNat = 255) :=
  ⟨reset_writes, writes_of (by decide +kernel), by decide +kernel⟩

theorem reset_indicators : IndicatorsFollow State.reset := by
  have none_ : ∀ m : Fin 4, ¬ LineHolds State.reset m := by
    intro m
    unfold LineHolds
    revert m
    decide +kernel
  have inv : ∀ m : Fin 4, State.reset.indicators[m] = false ∧ indicatorInvert State.reset.shadow m = false := by
    decide +kernel
  intro m
  simp [inv m, none_ m]

theorem witness_IndicatorDefinitionTaken : ConsoleWrites State.reset con ∧ IndicatorsFollow State.reset :=
  ⟨reset_writes, reset_indicators⟩

/-- A bucket at the new threshold, one inside it, and an unchanged threshold. -/
theorem witness_ThresholdAndInterruptEnableTaken :
    let s := { State.reset with cadence := put State.reset.cadence 31 { Cadence.zeroed .live with bucket := -5 } }
    ConsoleWrites s con ∧ bucketThreshold s.shadow 31 ≠ 5 ∧ s.cadence[(31 : SourceId)].bucket ≤ -5
      ∧ ¬ (s.cadence[(31 : SourceId)].bucket ≤ -6) :=
  ⟨writes_of (by decide +kernel), by decide +kernel⟩

/-! ### The store port -/

/-- Tags 31 and 32 of the byte; a FREE, a QUARANTINED and a BUSY entry. -/
theorem witness_ResponsesHandled :
    InService wall ∧ (14 : Initiator) ≠ 15 ∧ 32 ≤ (32 : Byte).toNat ∧ (31 : Byte).toNat = (31 : Tag).val
      ∧ wall.tags[(31 : Tag)] = .free ∧ (tagged wall .quarantined).tags[(7 : Tag)] = .quarantined
      ∧ (tagged wall (.busy 0 (.expansion 5 0))).tags[(7 : Tag)] = .busy 0 (.expansion 5 0) :=
  ⟨wall_inService, by decide +kernel⟩

/-- With a current entry and without one. -/
theorem witness_FillAnswersTaken :
    (let s := tagged painted (.busy 0 (.fill .zero .resolve 0))
     InService s ∧ (7 : Byte).toNat = (7 : Tag).val ∧ s.tags[(7 : Tag)] = .busy 0 (.fill .zero .resolve 0)
      ∧ s.channel0.current = true ∧ s.exposure = { entry with rowsDone := 8 } :: [])
    ∧ (let s := tagged filling (.busy 0 (.fill .zero .resolve 0))
       InService s ∧ s.channel0.current = false) :=
  ⟨⟨inService_of (by decide +kernel), by decide +kernel⟩, inService_of (by decide +kernel), by decide +kernel⟩

/-- A write of channel 1 with a current entry, channel 0 PENDING, and without one. -/
theorem witness_BorderAnswersTaken :
    let c : Channel := { Channel.powerOn with state := .active, outstanding := 1, current := true }
    let s := { tagged marking (.busy 0 (.fill .one .border 0)) with
      channel1 := c, channel0 := { Channel.powerOn with state := .pending }, exposure := [entry] }
    InService s ∧ s.tags[(7 : Tag)] = .busy 0 (.fill .one .border 0) ∧ (getChannel .one s).current = true
      ∧ (getChannel (otherChannel .one) s).state = .pending ∧ eventEnabled s.shadow 13 = true ∧ unread s ≠ 255
      ∧ InService { s with channel1 := { c with current := false } } :=
  ⟨inService_of (by decide +kernel), by decide +kernel, by decide +kernel, by decide +kernel, by decide +kernel,
    by decide +kernel, inService_of (by decide +kernel)⟩

/-- Slot 255 ends with slots 0 and 1 ended behind it, and slot 2 not. -/
theorem witness_PostAnswerPassesSeveral :
    let s := { tagged wall (.busy 0 (.post 0x4FF0)) with poster := { Poster.powerOn with
      producer := 255, allocation := 3, issued := [(255, false), (0, true), (1, true), (2, false)] } }
    InService s ∧ RingOrdered s ∧ s.tags[(7 : Tag)] = .busy 0 (.post (0x4000 + 16 * (255 : Slot).toNat))
      ∧ s.poster.issued = (255, false) :: [(0, true), (1, true)] ++ [(2, false)]
      ∧ (∀ j ∈ [((0 : Slot), true), (1, true)], j.2 = true)
      ∧ (∀ j, ([((2 : Slot), false)] : List (Slot × Bool)).head? ≠ some (j, true))
      ∧ (2 : Slot) = 255 + 1 + BitVec.ofNat 8 2 :=
  ⟨inService_of (by decide +kernel), ⟨by decide +kernel, by decide +kernel⟩, by decide +kernel, rfl, by decide +kernel,
    fun j => by simp, by decide +kernel⟩

/-- The slot at the producer index, and a later one. -/
theorem witness_PostAnswerMovesProducer :
    (let s := { tagged wall (.busy 0 (.post 0x4FF0)) with poster := { Poster.powerOn with issued := [(255, false), (0, false)] } }
     InService s ∧ s.tags[(7 : Tag)] = .busy 0 (.post (0x4000 + 16 * (255 : Slot).toNat))
      ∧ (∀ j, ([((0 : Slot), false)] : List (Slot × Bool)).head? ≠ some (j, true))
      ∧ s.poster.issued = (255, false) :: [(0, false)])
    ∧ (let s := { tagged wall (.busy 0 (.post 0x4000)) with poster := { Poster.powerOn with issued := [(255, false), (0, false)] } }
       InService s ∧ s.tags[(7 : Tag)] = .busy 0 (.post (0x4000 + 16 * (0 : Slot).toNat)) ∧ (255 : Slot) ≠ 0) :=
  ⟨⟨inService_of (by decide +kernel), by decide +kernel, fun j => by simp, rfl⟩, inService_of (by decide +kernel),
    by decide +kernel⟩

theorem witness_PassGranted :
    let s := { wall with passFifo := [pixels 1 0x20000 1] }
    InService s ∧ s.passFifo = pixels 1 0x20000 1 :: [] ∧ chosen s = some .pass ∧ s.passWait = [] :=
  ⟨inService_of (by decide +kernel), by decide +kernel⟩

/-- With one FREE tag, the last. -/
theorem witness_ExpansionGranted :
    let s := { wall with queue := [record 3], tags := put (Vector.replicate 32 .quarantined) 31 .free }
    InService s ∧ s.queue = record 3 :: [] ∧ chosen s = some .expansion ∧ freeTag s = some 31 ∧ s.holds = [] :=
  ⟨inService_of (by decide +kernel), by decide +kernel⟩

/-- Room for source 4 behind a held write of source 3, whose share is full; and room for neither. -/
theorem witness_ExpansionGrantedToHeld :
    let blocked := { held with waiting := { record 3 with epoch := 0 } }
    let waiting := { held with txn := pixels 5 0x2000100 2, waiting := record 4 }
    let v := { wall with queue := List.replicate 64 (record 3), holds := [blocked, waiting] }
    let none_ := { v with queue := List.replicate 64 (record 3) ++ List.replicate 64 (record 4) }
    v.holds = [blocked] ++ waiting :: [] ∧ (∀ g ∈ [blocked], inDate v g = true ∧ admissible v g.waiting.source = false)
      ∧ inDate v waiting = true ∧ admissible v waiting.waiting.source = true
      ∧ ∀ g ∈ none_.holds, inDate none_ g = true ∧ admissible none_ g.waiting.source = false := by decide +kernel

/-- The last write of a row with rows left, and the last of the last row. -/
theorem witness_LastWriteGranted :
    let s := fun n => { quiet painted with
      exposure := [{ entry with rowsDone := n }], channel0 := { painted.channel0 with row := [fillWrite] } }
    InService (s 3) ∧ (s 3).channel0.row = fillWrite :: [] ∧ chosen (s 3) = some .fill ∧ freeTag (s 3) = some 0
      ∧ 3 < entry.h ∧ resolveRow (s 3) entry 4 ≠ [] ∧ InService (s 7) ∧ 7 < entry.h ∧ entry.h = 8 :=
  ⟨inService_of (by decide +kernel), by decide +kernel, by decide +kernel, by decide +kernel, by decide +kernel,
    by decide +kernel, inService_of (by decide +kernel), by decide +kernel⟩

/-- Channel 1's first write of two, and its only one. -/
theorem witness_BorderGranted :
    let s := fun row => { quiet marking with
      marking := marking.marking.tail, channel1 := { Channel.powerOn with state := .active, current := true, row := row } }
    InService (s [fillWrite, fillWrite]) ∧ (s []).channel0.state ≠ .active ∧ chosen (s [fillWrite, fillWrite]) = some .fill
      ∧ freeTag (s [fillWrite]) = some 0 ∧ chosen (s [fillWrite]) = some .fill :=
  ⟨inService_of (by decide +kernel), by decide +kernel⟩

theorem witness_FillGranted :
    let s := { painted with channel0 := { painted.channel0 with row := [fillWrite, fillWrite] } }
    InService s ∧ s.channel0.state = .active ∧ s.channel0.row = fillWrite :: [fillWrite] ∧ chosen s = some .fill
      ∧ freeTag s = some 0 ∧ [fillWrite] ≠ [] :=
  ⟨inService_of (by decide +kernel), by decide +kernel⟩

/-- An event and no item; an item and an event, with an event offered last. -/
theorem witness_PostGranted :
    (let s := quiet { wall with poster := { Poster.powerOn with events := [event] } }
     InService s ∧ chosen s = some .post ∧ freeTag s = some 0 ∧ s.poster.events = event :: [] ∧ s.poster.flags = [])
    ∧ (let s := { wall with poster := { Poster.powerOn with events := [event] } }
       InService s ∧ chosen s = some .post ∧ s.poster.flags ≠ [] ∧ s.poster.lastSource = .events
        ∧ nextItem s.poster.lastItem s.poster.flags = some .mode) :=
  ⟨⟨inService_of (by decide +kernel), by decide +kernel⟩, inService_of (by decide +kernel), by decide +kernel⟩

theorem witness_ArbiterServesWithinFourGrants :
    InService wall ∧ eligible wall .post = true ∧ InService (quiet wall) ∧ (∀ q, eligible (quiet wall) q = false) :=
  ⟨wall_inService, by decide +kernel, inService_of (by decide +kernel), fun q => by cases q <;> decide +kernel⟩

/-- One microsecond before the timeout, and at it, with another tag that is not QUARANTINED and with none. -/
theorem witness_StoreTimeoutQuarantines :
    let s := { tagged wall (.busy 0 (.expansion 5 0)) with wallTime := 2000 }
    InService s ∧ s.tags[(7 : Tag)] = .busy 0 (.expansion 5 0) ∧ storeTimeout s.shadow ≤ (s.wallTime - 0).toNat
      ∧ ((1999 : Word) - 0).toNat < storeTimeout s.shadow ∧ (0 : Tag) ≠ 7 ∧ s.tags[(0 : Tag)] ≠ .quarantined :=
  ⟨inService_of (by decide +kernel), by decide +kernel⟩

/-- A fill write of each channel at its timeout, the last entry that is not QUARANTINED. -/
theorem witness_FillTimeout :
    let s := fun own => { tagged { painted with tags := Vector.replicate 32 .quarantined } (.busy 0 own) with wallTime := 2000 }
    InService (s (.fill .zero .resolve 0)) ∧ (s (.fill .zero .resolve 0)).channel0.current = true
      ∧ storeTimeout (s (.fill .zero .resolve 0)).shadow ≤ ((2000 : Word) - 0).toNat
      ∧ InService (s (.fill .one .border 0)) ∧ (s (.fill .one .border 0)).channel1.current = false
      ∧ eventEnabled (s (.fill .one .border 0)).shadow 14 = true ∧ unread (s (.fill .one .border 0)) ≤ 253 :=
  ⟨inService_of (by decide +kernel), by decide +kernel, by decide +kernel, inService_of (by decide +kernel),
    by decide +kernel⟩

/-- The POST write of slot 255 at its timeout, with the next slot ended and one outstanding behind it, and another tag FREE;
the same as the last entry that is not QUARANTINED; a slot that is not the first; a posted item's write. -/
theorem witness_PostTimeout :
    let s := fun own => { tagged wall (.busy 0 own) with
      wallTime := 2000
      poster := { Poster.powerOn with
        producer := 255, allocation := 2, issued := [(255, false)] ++ [(0, true)] ++ [(1, false)] } }
    (InService (s (.post (0x4000 + 16 * (255 : Slot).toNat)))
      ∧ storeTimeout (s (.post 0)).shadow ≤ ((2000 : Word) - 0).toNat ∧ RingOrdered (s (.post 0))
      ∧ (∀ j ∈ [((0 : Slot), true)], j.2 = true) ∧ (∀ j, [((1 : Slot), false)].head? ≠ some (j, true))
      ∧ (1 : Slot) = 255 + 1 + BitVec.ofNat 8 [((0 : Slot), true)].length ∧ (s (.post 0)).tags[(0 : Tag)] ≠ .quarantined)
    ∧ InService { s (.post 0) with tags := put (Vector.replicate 32 .quarantined) 7 (.busy 0 (.post 0x4FF0)) }
    ∧ (InService (s (.post (0x4000 + 16 * (1 : Slot).toNat))) ∧ (255 : Slot) ≠ 1)
    ∧ InService (s (.post 0x3FFC)) ∧ 0x3FFC < 0x4000 :=
  ⟨⟨inService_of (by decide +kernel), by decide +kernel, ⟨by decide +kernel, by decide +kernel⟩, by decide +kernel,
      fun j => by simp, by decide +kernel, by decide +kernel⟩,
    inService_of (by decide +kernel), ⟨inService_of (by decide +kernel), by decide +kernel⟩,
    inService_of (by decide +kernel), by decide +kernel⟩

/-! ### Timers -/

theorem witness_SyncLimitUnsyncsPanel :
    (let s := { synced .scanning with wallTime := 199999 }
     InService s ∧ syncLimitReached s 0 = false)
    ∧ (let s := { synced .scanning with wallTime := 200000 }
       InService s ∧ isGrid s.geometry 0 = true ∧ s.sync[(0 : PanelId)].state ≠ .unsynced
        ∧ 200000 ≤ (s.wallTime - s.sync[(0 : PanelId)].lastRead).toNat ∧ ¬ (s.commit.state = .inFlight))
    ∧ (let s := { flight with wallTime := 200000 }
       InService s ∧ CommitCoherent s ∧ s.commit.state = .inFlight ∧ s.commit.switched[(0 : PanelId)] = false
        ∧ s.next = some (layout 1) ∧ s.commit.remaining = 1)
    ∧ (let s := { flight2 with wallTime := 200000 }
       InService s ∧ CommitCoherent s ∧ 1 < s.commit.remaining) :=
  ⟨⟨inService_of (by decide +kernel), by decide +kernel⟩, ⟨inService_of (by decide +kernel), by decide +kernel⟩,
    ⟨inService_of (by decide +kernel), commit_at _ flight_commit, by decide +kernel⟩, inService_of (by decide +kernel),
    commit_at _ flight2_commit, by decide +kernel⟩

theorem witness_SwitchLimitCompletesCommit :
    (let s := { flight2 with wallTime := 99999 }
     InService s ∧ CommitCoherent s ∧ switchLimitReached s = false)
    ∧ (let s := { flight2 with wallTime := 100000 }
       InService s ∧ CommitCoherent s ∧ s.commit.state = .inFlight
        ∧ s.commit.limit * 1000 ≤ (s.wallTime - s.commit.limitStart).toNat ∧ s.next = some (layout 1)) :=
  ⟨⟨inService_of (by decide +kernel), commit_at _ flight2_commit, by decide +kernel⟩, inService_of (by decide +kernel), commit_at _ flight2_commit,
    by decide +kernel⟩

theorem witness_CadenceTickCounts :
    InService wall ∧ wall.mode = .run ∧ InService State.reset ∧ State.reset.mode = .setup
      ∧ (∀ src : SourceId, State.reset.cadence[src].state = .disabled) :=
  ⟨wall_inService, by decide +kernel, inService_of (by decide +kernel), by decide +kernel⟩

/-- Two counts before the limit of 65535, and one; source 4 LIVE, so that window 5 fails over. -/
theorem witness_StaleLimitEntersStale :
    let c := { Cadence.zeroed .live with baseline := 60000, elapsed := 65533 }
    let at_ := fun n => { wall with
      cadence := put (put wall.cadence 3 { c with elapsed := n }) 4 { Cadence.zeroed .live with baseline := 20 } }
    let raised := fun (s : State) (q : SourceId) =>
      { s.cadence[q] with elapsed := min 65535 (s.cadence[q].elapsed + 1) }
    InService (at_ 65533) ∧ limitReached (at_ 65533).shadow 3 (raised (at_ 65533) 3) = false
      ∧ InService (at_ 65534) ∧ (at_ 65534).mode = .run
      ∧ limitReached (at_ 65534).shadow 3 (raised (at_ 65534) 3) = true
      ∧ (∀ q, q ≠ 3 → limitReached (at_ 65534).shadow q (raised (at_ 65534) q) = false)
      ∧ (at_ 65534).cadence[(3 : SourceId)].state ≠ .recovering ∧ eventEnabled (at_ 65534).shadow 6 = true
      ∧ unread (at_ 65534) ≤ 125
      ∧ switches 3 { at_ 65534 with cadence := put (at_ 65534).cadence 3 (Cadence.zeroed .stale) } (at_ 65534) 5 = true :=
  ⟨inService_of (by decide +kernel), by decide +kernel, inService_of (by decide +kernel), by decide +kernel⟩

/-- R135: right after a tick, a write that lowers FL below the elapsed count does not make the source STALE; the next tick
does, with the count raised, and STALE_LIMIT_EXPIRY is that tick. -/
theorem test_lowered_limit_acts_at_the_next_tick :
    let s := { wall with
      wallTime := 640, cadence := put wall.cadence 3 { Cadence.zeroed .awaiting with elapsed := 10 } }
    let lowered := written s 0x10D8 [5]
    let c := ticked lowered.cadence[(3 : SourceId)]
    staleDue s 3 = false ∧ lowered.cadence[(3 : SourceId)].state = .awaiting ∧ staleDue lowered 3 = true
      ∧ nextTickTime lowered.wallTime = 704 ∧ limitReached lowered.shadow 3 c = true ∧ (staled c).elapsed = 11 := by
  decide +kernel

/-- R103, R172: while nothing is refused the commit word names no window and no other window. -/
theorem test_empty_refusal_names_no_window :
    (itemBytes State.reset .commit).getD 4 0 = 0xFF ∧ (itemBytes State.reset .commit).getD 6 0 = 0xFF := by decide +kernel

/-- A window whose ACTIVE record fails over while it is advised for NEXT: two kinds of event. -/
theorem test_two_kinds_for_one_window :
    let s := { marking with
      cadence := put marking.cadence 4 (Cadence.zeroed .live)
      next := some { layout 1 with
        records := put (layout 1).records 5 { shown with window := { shown.window with mode := .notify } } } }
    copiesWhere (failsOver 3 s) s 5 = 1 ∧ copiesWhere (isAdvised 3 s) s 5 = 2 ∧ isAdvised 3 s shown = false := by
  decide +kernel

/-! ### Fill entries -/

/-- An entry behind a superseded one; all superseded; a BORDER entry behind one that fails its check; none due. -/
theorem witness_FillEntryStarted :
    (InService filling ∧ filling.channel0.state = .active ∧ filling.channel0.current = false
      ∧ filling.channel0.outstanding = 0 ∧ filling.exposure = [{ entry with epoch := 7 }] ++ entry :: []
      ∧ (∀ x ∈ [{ entry with epoch := 7 }], x.epoch ≠ filling.panelEpoch[x.panel])
      ∧ entry.epoch = filling.panelEpoch[entry.panel])
    ∧ (let s := { filling with panelEpoch := Vector.replicate 32 1 }
       InService s ∧ s.exposure ≠ [] ∧ (∀ x ∈ s.exposure, x.epoch ≠ s.panelEpoch[x.panel]) ∧ FillCoherent s)
    ∧ (InService marking ∧ marking.channel0.state ≠ .active ∧ marking.channel1.state = .active
      ∧ marking.marking.map (borderPasses marking) = [false, true])
    ∧ (let s := { marking with cadence := wall.cadence, channel0 := { Channel.powerOn with state := .pending } }
       InService s ∧ s.channel0.state ≠ .active ∧ s.marking ≠ [] ∧ ∀ x ∈ s.marking, borderPasses s x = false)
    ∧ startingChannel wall = none :=
  ⟨⟨inService_of (by decide +kernel), by decide +kernel⟩, ⟨inService_of (by decide +kernel), by decide +kernel,
    by decide +kernel,
    fill_of (by decide +kernel) (by decide +kernel) (by decide +kernel) (by decide +kernel) (by decide +kernel)⟩,
    ⟨inService_of (by decide +kernel), by decide +kernel⟩, ⟨inService_of (by decide +kernel), by decide +kernel⟩,
    by decide +kernel⟩

/-- Channel 1's painted entry, with channel 0 PENDING and IDLE. -/
theorem witness_BorderEntryCompleted :
    let s := { marking with
      marking := [{ panel := 0, window := 5, source := 3, firstLine := 0, lines := 8, rowsDone := 8 }]
      channel1 := { Channel.powerOn with state := .active, current := true } }
    InService s ∧ InService { s with channel0 := { Channel.powerOn with state := .pending }, exposure := [entry] }
      ∧ s.channel0.state ≠ .active ∧ s.channel1.row = [] ∧ s.channel1.outstanding = 0 :=
  ⟨inService_of (by decide +kernel), inService_of (by decide +kernel), by decide +kernel⟩

/-- A painted entry, with channel 1 PENDING and IDLE. -/
theorem witness_FillEntryCompleted :
    let pending := { painted with marking := marking.marking, channel1 := { Channel.powerOn with state := .pending } }
    InService painted ∧ InService pending ∧ painted.channel0.state = .active ∧ painted.channel0.current = true
      ∧ painted.channel0.row = [] ∧ painted.channel0.outstanding = 0
      ∧ painted.exposure = { entry with rowsDone := 8 } :: [] ∧ entry.h ≤ 8 ∧ paintedChannel wall = none :=
  ⟨inService_of (by decide +kernel), inService_of (by decide +kernel), by decide +kernel⟩

/-! ### Invariants: each at a state from which a command leads to a next state -/

theorem witness_QueueBoundsKept :
    let s := { wall with queue := List.replicate 64 (record 3), pending := [.apertureWrite (pixels 2 0x2000100 2)] }
    QueueBounds s ∧ ∃ t, step s = .next t := ⟨⟨by decide +kernel, by decide +kernel⟩, step_answers _⟩

theorem witness_CommitCoherenceKept :
    CommitCoherent { flight2 with pending := [.scanoutRead (reading 4 0x17E7200)] }
      ∧ ∃ t, step { flight2 with pending := [.scanoutRead (reading 4 0x17E7200)] } = .next t :=
  ⟨commit_queued _ flight2_commit, step_answers _⟩

theorem witness_FillCoherenceKept :
    FillCoherent { filling with pending := [.fillEntryStart] }
      ∧ ∃ t, step { filling with pending := [.fillEntryStart] } = .next t :=
  ⟨fill_of (by decide +kernel) (by decide +kernel) (by decide +kernel) (by decide +kernel) (by decide +kernel),
    step_answers _⟩

theorem witness_SourcesCoherenceKept :
    SourcesCoherent { State.reset with pending := [.sourceDisable con 3 false false] }
      ∧ ∃ t, step { State.reset with pending := [.sourceDisable con 3 false false] } = .next t :=
  ⟨⟨by decide +kernel, fun i j a b _ hi _ => by
      have h : ∀ k : SourceId, State.reset.apertures[k] = none := by decide +kernel
      have hi' : State.reset.apertures[i] = some a := hi
      rw [h i] at hi'
      exact nomatch hi'⟩, step_answers _⟩

theorem witness_RingOrderKept :
    let s := { wall with
      poster := { Poster.powerOn with producer := 255, allocation := 1, issued := [(255, true)], events := [event] }
      pending := [.storeOpportunity] }
    RingOrdered s ∧ ∃ t, step s = .next t := ⟨⟨by decide +kernel, by decide +kernel⟩, step_answers _⟩

theorem witness_IrqFollowsProducer :
    let s := { written wall 0x34 [1] with
      irq := true, poster := { Poster.powerOn with producer := 1, allocation := 1 }
      pending := [.consumerIndexWrite con 1] }
    IrqFollows s ∧ ∃ t, step s = .next t := ⟨by unfold IrqFollows; decide +kernel, step_answers _⟩

theorem witness_IndicatorsFollowConditions :
    IndicatorsFollow State.reset ∧ ∃ t, step State.reset = .next t := ⟨reset_indicators, step_answers _⟩

theorem witness_ShadowFormKept :
    let s := { written State.reset 0x2080 [2] with pending := [.wallReset con 1] }
    shadowWf s.shadow = true ∧ ∃ t, step s = .next t := ⟨by decide +kernel, step_answers _⟩

theorem witness_IntakeCoherenceKept :
    let s := { wall with
      holds := [held], lines := put wall.lines 2 [pixels 2 0x20000 1], pending := [.storeOpportunity] }
    IntakeCoherent s ∧ ∃ t, step s = .next t :=
  ⟨⟨by decide +kernel, by decide +kernel, by decide +kernel, by decide +kernel, .inr (settled_of (by decide +kernel))⟩,
    step_answers _⟩

end Sys2Proof.Tests
end

/-! PROOFS of O17: sampling. First destination position and sampled source position are adjoint, and each part of R72 is
read off from that. -/

namespace Sys2Proof.Sampling

open Sys2Proof Sys2Proof.Machine

/-! ## `firstDest` and `sampled` as bounds on products -/

theorem le_sampled_iff {k u n d : Nat} (hd : 0 < d) : k ≤ sampled u n d ↔ 2 * k * d ≤ (2 * u + 1) * n := by
  rw [sampled, Nat.le_div_iff_mul_le (by omega), Nat.mul_left_comm, Nat.mul_assoc]

theorem firstDest_le_iff_mul_le {k u n d : Nat} (hn : 0 < n) :
    firstDest k n d ≤ u ↔ 2 * k * d ≤ (2 * u + 1) * n := by
  have next_double : (u + 1) * (2 * n) = 2 * (u * n) + 2 * n := by
    rw [Nat.add_mul, Nat.one_mul, Nat.mul_left_comm]
  have odd_multiple : (2 * u + 1) * n = 2 * (u * n) + n := by
    rw [Nat.add_mul, Nat.one_mul, Nat.mul_assoc]
  rw [firstDest, ← Nat.lt_succ_iff, Nat.succ_eq_add_one, Nat.div_lt_iff_lt_mul (by omega), next_double, odd_multiple]
  omega

/-- R72's inverse: a destination position lies at or past the first one of `k` just where it shows `k` or a later
source position. -/
theorem firstDest_le_iff_le_sampled {k u n d : Nat} (hn : 0 < n) (hd : 0 < d) :
    firstDest k n d ≤ u ↔ k ≤ sampled u n d := by
  rw [firstDest_le_iff_mul_le hn, le_sampled_iff hd]

theorem sampled_mem_span_iff {a0 a1 u n d : Nat} (hn : 0 < n) (hd : 0 < d) :
    (firstDest a0 n d ≤ u ∧ u < firstDest (a1 + 1) n d) ↔ (a0 ≤ sampled u n d ∧ sampled u n d ≤ a1) := by
  have below_next : u < firstDest (a1 + 1) n d ↔ sampled u n d ≤ a1 := by
    rw [← Nat.not_le, firstDest_le_iff_le_sampled hn hd, Nat.not_le, Nat.lt_succ_iff]
  rw [firstDest_le_iff_le_sampled hn hd, below_next]

/-- How a Galois bound fixes a value; core Lean, which the package is built on, has no such lemma. -/
theorem eq_of_same_upper_bounds {a b : Nat} (h : ∀ u, a ≤ u ↔ b ≤ u) : a = b :=
  Nat.le_antisymm ((h b).mpr (Nat.le_refl b)) ((h a).mp (Nat.le_refl a))

/-! ## The formula of R72, and the ends of the crop -/

/-- R72's ceiling, written as the negated floor of the negated quotient, has the same natural upper bounds as
`firstDest`. -/
theorem ceiling_le_iff_mul_le {k u n d : Nat} (hn : 0 < n) :
    -(((n : Int) - 2 * k * d) / (2 * n)) ≤ u ↔ 2 * k * d ≤ (2 * u + 1) * n := by
  have floor_bound : -(u : Int) ≤ ((n : Int) - 2 * k * d) / (2 * n) ↔ -(u : Int) * (2 * n) ≤ (n : Int) - 2 * k * d :=
    Int.le_ediv_iff_mul_le (by omega)
  have odd_multiple : (2 * (u : Int) + 1) * n = n - -(u : Int) * (2 * n) := by
    rw [Int.add_mul, Int.one_mul, Int.neg_mul, Int.mul_left_comm, Int.mul_assoc, Int.sub_neg, Int.add_comm]
  have cast_bound : 2 * k * d ≤ (2 * u + 1) * n ↔ 2 * (k : Int) * d ≤ (2 * (u : Int) + 1) * n := by
    exact_mod_cast Iff.rfl
  rw [cast_bound, odd_multiple, ← Int.neg_le_neg_iff, Int.neg_neg, floor_bound]
  omega

theorem firstDest_eq_max_ceiling {k n d : Nat} (hn : 0 < n) :
    (firstDest k n d : Int) = max 0 (-(((n : Int) - 2 * k * d) / (2 * n))) := by
  have same_bounds : firstDest k n d = (-(((n : Int) - 2 * k * d) / (2 * n))).toNat :=
    eq_of_same_upper_bounds fun u => by
      rw [firstDest_le_iff_mul_le hn, Int.toNat_le, ceiling_le_iff_mul_le hn]
  rw [same_bounds, Int.ofNat_toNat, Int.max_comm]

theorem firstDest_zero {n d : Nat} (hn : 0 < n) : firstDest 0 n d = 0 :=
  Nat.le_zero.mp ((firstDest_le_iff_mul_le hn).mpr (by simp))

theorem firstDest_crop_end {n d : Nat} (hn : 0 < n) : firstDest n n d = d :=
  eq_of_same_upper_bounds fun u => by
    rw [firstDest_le_iff_mul_le hn, Nat.mul_right_comm, Nat.mul_le_mul_right_iff hn]
    omega

/-! ## The scale limits -/

theorem scaleFails_eq_false_iff {crop dest : Nat} :
    scaleFails crop dest = false ↔ crop ≤ 16 * dest ∧ dest ≤ 8 * crop := by
  simp [scaleFails]

theorem product_le_of_scale {crop dest : Nat} (hcrop : crop ≤ 4096) (hscale : scaleFails crop dest = false) :
    dest ≤ 32768 ∧ 2 * crop * dest ≤ 2 ^ 28 := by
  obtain ⟨-, hdest⟩ := scaleFails_eq_false_iff.mp hscale
  have hmax : dest ≤ 32768 := by omega
  refine ⟨hmax, ?_⟩
  calc 2 * crop * dest ≤ 2 * 4096 * 32768 := Nat.mul_le_mul (Nat.mul_le_mul_left 2 hcrop) hmax
    _ = 2 ^ 28 := by decide

/-- Settles O17: every part from the adjunction of `firstDest` and `sampled`, but for the bound, which is the scale
limits'. -/
theorem samplingSpansAreExact : Obligations.SamplingSpansAreExact := fun _ _ hcw hdw =>
  ⟨fun _ => rfl, fun _ => firstDest_eq_max_ceiling hcw, fun _ _ _ _ => sampled_mem_span_iff hcw hdw,
    firstDest_zero hcw, firstDest_crop_end hcw, product_le_of_scale⟩

end Sys2Proof.Sampling

/-! PROOFS of O4: the power-on state. A word of the unwritten shadow reads as its power-on word, so that every staging
record is blank; the tables of `State.powerOn` each hold one value throughout. -/

namespace Sys2Proof.PowerOn

open Sys2Proof Sys2Proof.Machine

/-! ## The shadow before any write -/

theorem powerOnByte_add {off i : Nat} (haligned : off % 4 = 0) (hi : i < 4) :
    powerOnByte (off + i) = byteOf (powerOnWord off) i := by
  rw [powerOnByte, show (off + i) / 4 * 4 = off by omega, show (off + i) % 4 = i by omega]

theorem shadowWord_nil {off : Nat} (haligned : off % 4 = 0) : shadowWord [] off = powerOnWord off := by
  have first_byte : powerOnByte off = byteOf (powerOnWord off) 0 := powerOnByte_add (i := 0) haligned (by decide)
  rw [shadowWord, shadowRead, shadowRead, shadowRead, shadowRead, first_byte, powerOnByte_add haligned (by decide),
    powerOnByte_add haligned (by decide), powerOnByte_add haligned (by decide), wordOf_byteOf]

/-- No record from 0x1800 on has a power-on value other than 0 (R50, R172). -/
theorem powerOnWord_of_ge {off : Nat} (h : 0x1800 ≤ off) : powerOnWord off = 0 := by
  rw [powerOnWord, if_neg (by omega), if_neg (by omega), if_neg (by omega)]

theorem shadowWord_nil_stage (w : WindowId) {k : Nat} (haligned : k % 4 = 0) :
    shadowWord [] (stageOffset w + k) = 0 := by
  rw [shadowWord_nil (by rw [stageOffset]; omega), powerOnWord_of_ge (by rw [stageOffset]; omega)]

theorem stageWindow_nil (w : WindowId) : stageWindow [] w = Window.blank := by
  have first_word : shadowWord [] (stageOffset w) = 0 := shadowWord_nil_stage w (k := 0) rfl
  simp only [stageWindow, first_word, shadowWord_nil_stage]
  rfl

/-! ## The posted items and the empty queue -/

theorem mem_allItems (i : PostItem) : i ∈ allItems := by
  cases i <;> simp [allItems]

theorem share_of_queue_nil {s : State} (hqueue : s.queue = []) (src : SourceId) : share s src = 0 := by
  rw [share, hqueue, List.countP_nil]

theorem itemBytes_occupancy_of_queue_nil {s : State} (hqueue : s.queue = []) :
    itemBytes s .occupancy = [0, 0, 0, 0] := by
  rw [itemBytes, hqueue]
  rfl

/-- Settles O4: the shadow is unwritten, the queue and the hold list are empty, each table holds one value throughout, and
every item is flagged. -/
theorem powerOnQueueAndLayouts : Obligations.PowerOnQueueAndLayouts := by
  rintro base prio s rfl
  refine ⟨⟨rfl, share_of_queue_nil rfl, rfl, fun src => ?overrun, mem_allItems _, itemBytes_occupancy_of_queue_nil rfl⟩,
    fun w => ⟨stageWindow_nil w, ?active⟩, rfl, rfl, rfl,
    fun p => ⟨?selection, ?panelEpoch, mem_allItems _⟩, fun w => ⟨?gates, ?fillCount, mem_allItems _⟩⟩
  all_goals exact Vector.getElem_replicate _

end Sys2Proof.PowerOn

/-! PROOFS of O30: the Fill Engine at a reset (R133). Of the phases of a wall reset `resetFills` alone writes the Fill
Engine's part of the state and `quarantineAll` alone the tag table; every other phase keeps both. -/

namespace Sys2Proof.FillResets

open Sys2Proof Sys2Proof.Machine

/-! ## What an operation keeps of a view of the state -/

theorem foldl_view {α β : Type} {view : State → β} {f : State → α → State} (hf : ∀ s x, view (f s x) = view s)
    (l : List α) (s : State) : view (l.foldl f s) = view s :=
  foldl_keeps (R := fun s t => view t = view s) (fun _ => rfl) (fun hst htu => htu.trans hst) f hf l s

/-- Of two actions in either order, one that keeps the view leaves what the other makes of it. -/
theorem inEitherOrder_view {β : Type} {view : State → β} {change : β → β} {f g : State → State}
    (hchoices : ∀ n s, view { s with choices := n } = view s) (hf : ∀ s, view (f s) = view s)
    (hg : ∀ s, view (g s) = change (view s)) (s : State) : view (inEitherOrder f g s) = change (view s) := by
  unfold inEitherOrder
  dsimp only
  split
  · rw [hg, hf, hchoices]
  · rw [hf, hg, hchoices]

/-! ## The Fill Engine's part of the state -/

/-- The fill lists, the channels and the pending-fill counts. -/
structure FillPart where
  exposure : List ResolveEntry
  marking : List BorderEntry
  channel0 : Channel
  channel1 : Channel
  fillCount : Vector Nat 64

def fillPart (s : State) : FillPart :=
  { exposure := s.exposure, marking := s.marking, channel0 := s.channel0, channel1 := s.channel1
    fillCount := s.fillCount }

/-- The part after a wall reset (R133, R63). -/
def FillPart.reset (p : FillPart) : FillPart :=
  { exposure := [], marking := [], channel0 := resetChannel p.channel0, channel1 := resetChannel p.channel1
    fillCount := Vector.replicate 64 0 }

theorem fillPart_resetFills (s : State) : fillPart (resetFills s) = (fillPart s).reset := rfl

/-! ### The evaluations keep it -/

theorem fillPart_choices (n : Nat) (s : State) : fillPart { s with choices := n } = fillPart s := rfl

theorem fillPart_postEvent (e : Event) (s : State) : fillPart (postEvent e s) = fillPart s := rfl

theorem fillPart_armGate (w : WindowId) (s : State) : fillPart (armGate w s) = fillPart s := rfl

theorem fillPart_setCadence (src : SourceId) (c : Cadence) (s : State) :
    fillPart (setCadence src c s) = fillPart s := rfl

theorem fillPart_evaluateIndicators (s : State) : fillPart (evaluateIndicators s) = fillPart s := rfl

theorem fillPart_putActive (w : WindowId) (o : Option LayoutRecord) (s : State) :
    fillPart (putActive w o s) = fillPart s := by
  cases o <;> rfl

theorem fillPart_setNextRecord (w : WindowId) (r : LayoutRecord) (s : State) :
    fillPart (setNextRecord w r s) = fillPart s := by
  unfold setNextRecord
  split <;> rfl

theorem fillPart_putNext (w : WindowId) (o : Option LayoutRecord) (s : State) :
    fillPart (putNext w o s) = fillPart s := by
  cases o with
  | none => rfl
  | some r => exact fillPart_setNextRecord w r s

theorem fillPart_reportedSources (inActive inNext : Option (Nat × Nat)) (s : State) :
    fillPart (reportedSources inActive inNext s).2 = fillPart s := by
  unfold reportedSources
  split
  · split <;> rfl
  all_goals rfl

theorem fillPart_reportMove (w : WindowId) (m : Move) (inActive inNext : Option (Nat × Nat)) (s : State) :
    fillPart (reportMove w m inActive inNext s) = fillPart s := by
  unfold reportMove
  split
  · rfl
  · rw [fillPart_postEvent, fillPart_reportedSources]

theorem fillPart_reportMoves {report : Move → State → State} (hreport : ∀ m s, fillPart (report m s) = fillPart s)
    (inActive inNext : Option Move) (s : State) : fillPart (reportMoves report inActive inNext s) = fillPart s := by
  unfold reportMoves
  split
  · split
    · exact hreport _ s
    · exact inEitherOrder_view (change := id) fillPart_choices (hreport _) (hreport _) s
  · exact hreport _ s
  · exact hreport _ s
  · rfl

theorem fillPart_evaluateWindow (only : Option SourceId) (inActive : Bool) (w : WindowId) (s : State) :
    fillPart (evaluateWindow only inActive w s) = fillPart s := by
  unfold evaluateWindow
  dsimp only
  rw [fillPart_reportMoves fun m s => fillPart_reportMove w m _ _ s]
  have hput : ∀ inActive inNext, fillPart (putNext w inNext (putActive w inActive s)) = fillPart s := fun _ _ => by
    rw [fillPart_putNext, fillPart_putActive]
  exact ite_keeps (R := fun s t => fillPart t = fillPart s) ((fillPart_armGate w _).trans (hput _ _)) (hput _ _)

theorem fillPart_evaluateFailover (only : Option SourceId) (inActive : Bool) (s : State) :
    fillPart (evaluateFailover only inActive s) = fillPart s :=
  foldl_view (fun s w => fillPart_evaluateWindow only inActive w s) _ s

theorem fillPart_cadencesMoved (srcs : List SourceId) (s : State) :
    fillPart (cadencesMoved srcs s) = fillPart s := by
  rw [cadencesMoved, fillPart_evaluateIndicators,
    foldl_view fun s src => fillPart_evaluateFailover (some src) true s]

/-! ### The other phases of a wall reset keep it -/

theorem fillPart_setCommit (c : Commit) (s : State) : fillPart (setCommit c s) = fillPart s := rfl

theorem fillPart_commit (c : Commit) (s : State) : fillPart { s with commit := c } = fillPart s := rfl

theorem fillPart_abandonCommit (s : State) : fillPart (abandonCommit s) = fillPart s := by
  unfold abandonCommit
  dsimp only
  split
  · rw [fillPart_commit, fillPart_postEvent, fillPart_setCommit]
  · rfl

theorem fillPart_reportExhausted (s : State) : fillPart (reportExhausted s) = fillPart s := by
  unfold reportExhausted
  split <;> rfl

theorem fillPart_quarantineAll (s : State) : fillPart (quarantineAll s) = fillPart s :=
  fillPart_reportExhausted _

theorem fillPart_resetQueue (s : State) : fillPart (resetQueue s) = fillPart s := rfl

theorem fillPart_resetLayouts (s : State) : fillPart (resetLayouts s) = fillPart s := rfl

theorem fillPart_resetOwners (s : State) : fillPart (resetOwners s) = fillPart s :=
  foldl_view (fun s w => by split <;> rfl) _ s

theorem fillPart_awaitAll (s : State) : fillPart (awaitAll s) = fillPart s := by
  rw [awaitAll, fillPart_cadencesMoved, foldl_view fun s src => fillPart_setCadence src _ s]

theorem fillPart_resetPoster (s : State) : fillPart (resetPoster s) = fillPart s := rfl

theorem fillPart_wallReset (e : Event) (s : State) : fillPart (wallReset e s) = (fillPart s).reset := by
  rw [wallReset, fillPart_postEvent, fillPart_resetPoster, fillPart_awaitAll, fillPart_resetOwners, fillPart_resetFills,
    fillPart_resetLayouts, fillPart_resetQueue,
    inEitherOrder_view (change := id) fillPart_choices fillPart_abandonCommit fillPart_quarantineAll, id_eq]

/-! ## The tag table -/

/-- A tag table entry after a wall reset (R20). -/
def quarantinedEntry (e : TagState) : TagState := if e = .free then .free else .quarantined

theorem tags_reportExhausted (s : State) : (reportExhausted s).tags = s.tags := by
  unfold reportExhausted
  split <;> rfl

theorem tags_quarantineAll (s : State) : (quarantineAll s).tags = s.tags.map quarantinedEntry := by
  unfold quarantineAll
  rw [tags_reportExhausted, flagIf_tags]
  refine congrArg s.tags.map (funext fun e => ?_)
  cases e <;> rfl

theorem tags_abandonCommit (s : State) : (abandonCommit s).tags = s.tags := by
  unfold abandonCommit
  split <;> rfl

theorem tags_resetOwners (s : State) : (resetOwners s).tags = s.tags :=
  foldl_view (view := State.tags) (fun s w => by split <;> rfl) _ s

theorem tags_resetQueue (s : State) : (resetQueue s).tags = s.tags := rfl

theorem tags_resetLayouts (s : State) : (resetLayouts s).tags = s.tags := rfl

theorem tags_resetPoster (s : State) : (resetPoster s).tags = s.tags := rfl

theorem tags_wallReset (e : Event) (s : State) : (wallReset e s).tags = s.tags.map quarantinedEntry := by
  rw [wallReset, postEvent_tags, tags_resetPoster, (awaitAll_only _).tags, tags_resetOwners, (resetFills_only _).tags,
    tags_resetLayouts, tags_resetQueue, inEitherOrder_view (view := State.tags) (change := Vector.map quarantinedEntry)
      (fun _ _ => rfl) tags_abandonCommit tags_quarantineAll]

/-! ## The posting flags -/

theorem mem_insertItem_of_mem {i j : PostItem} {l : List PostItem} (h : i ∈ l) : i ∈ insertItem j l := by
  induction l with
  | nil => cases h
  | cons k rest ih =>
    unfold insertItem
    split
    · exact List.mem_cons_of_mem j h
    · split
      · exact h
      · exact List.mem_cons.2 ((List.mem_cons.1 h).imp_right ih)

theorem mem_flaggedIf_of_mem {i j : PostItem} {p : Poster} (changed : Bool) (h : i ∈ p.flags) :
    i ∈ (flaggedIf changed j p).flags := by
  cases changed with
  | false => exact h
  | true => exact mem_insertItem_of_mem h

/-- An event handed over takes no posting flag back, be it masked, dropped or allocated. -/
theorem mem_flags_postEvent {i : PostItem} {s : State} (e : Event) (h : i ∈ s.poster.flags) :
    i ∈ (postEvent e s).poster.flags := by
  show i ∈ (handedOver s.shadow s.wallTime e s.poster).flags
  unfold handedOver
  split
  · split
    · exact mem_flaggedIf_of_mem _ h
    · exact h
  · exact h

theorem mem_flags_resetPoster (i : PostItem) (s : State) : i ∈ (resetPoster s).poster.flags :=
  mem_flaggedIf_of_mem _ (PowerOn.mem_allItems i)

theorem mem_flags_wallReset (i : PostItem) (e : Event) (s : State) : i ∈ (wallReset e s).poster.flags :=
  mem_flags_postEvent e (mem_flags_resetPoster i _)

/-! ## The resets -/

/-- Settles O30: a wall reset leaves the Fill Engine's part of the state reset, the used tags quarantined and every item
flagged; the power-on state holds the values themselves. -/
theorem fillEngineResets : Obligations.FillEngineResets := by
  refine ⟨?wall, ?powerOn⟩
  case wall =>
    rintro s e v rfl
    have hpart := fillPart_wallReset e s
    simp only [fillPart, FillPart.reset, FillPart.mk.injEq] at hpart
    obtain ⟨hexposure, hmarking, hchannel0, hchannel1, hcounts⟩ := hpart
    rw [hexposure, hmarking, hchannel0, hchannel1, hcounts, tags_wallReset]
    exact ⟨rfl, rfl, rfl, rfl, rfl, rfl, rfl, rfl, rfl, rfl, rfl, rfl, mem_flags_wallReset _ e s,
      fun w => Vector.getElem_replicate _, fun t => Vector.getElem_map _ _, (wallReset_only e s).storeOut⟩
  case powerOn =>
    rintro base prio s rfl
    exact ⟨rfl, rfl, rfl, rfl, rfl, rfl, rfl, rfl, PowerOn.mem_allItems _⟩

end Sys2Proof.FillResets

/-! PROOFS of O57: the indicator lines (R148, R149). What a line shows depends on the cadence states and on the line
definitions alone. An operation that touches neither keeps the lines (`Kept`); every change of a cadence state and every
write of a definition ends with an evaluation of the lines, which drives them and flags their word (`Tracks`). -/

namespace Sys2Proof.Indicators

open Sys2Proof Sys2Proof.Machine Sys2Proof.FillResets

/-! ## The value of a line -/

theorem isStale_iff {s : State} {src : SourceId} : isStale s src = true ↔ s.cadence[src].state = .stale :=
  beq_iff_eq

/-- The value a line is driven to is its condition, inverted where its invert flag is set (R149). -/
theorem indicatorLevel_iff {s : State} {m : Fin 4} :
    indicatorLevel s m = true ↔ (LineHolds s m ↔ indicatorInvert s.shadow m = false) := by
  have condition : (if indicatorAll s.shadow m then
      !((List.finRange 32).filter (indicatorMask s.shadow m)).isEmpty
        && ((List.finRange 32).filter (indicatorMask s.shadow m)).all (isStale s)
      else ((List.finRange 32).filter (indicatorMask s.shadow m)).any (isStale s)) = true ↔ LineHolds s m := by
    unfold LineHolds
    split
    · simp only [Bool.and_eq_true, Bool.not_eq_true', List.isEmpty_eq_false_iff_exists_mem, List.all_eq_true,
        List.mem_filter, List.mem_finRange, true_and, isStale_iff]
    · simp only [List.any_eq_true, List.mem_filter, List.mem_finRange, true_and, isStale_iff]
  have inverted : ∀ holds invert : Bool, (holds != invert) = true ↔ (holds = true ↔ invert = false) := by decide
  exact (inverted _ _).trans (iff_congr condition Iff.rfl)

/-- The bytes of the four line definitions (R148, R172). -/
def IsDefinitionByte (off : Nat) : Prop := 0x40 ≤ off ∧ off < 0x60

theorem indicatorLevel_congr {s t : State} (states : ∀ src : SourceId, t.cadence[src].state = s.cadence[src].state)
    (definitions : ∀ off, IsDefinitionByte off → shadowRead t.shadow off = shadowRead s.shadow off) (m : Fin 4) :
    indicatorLevel t m = indicatorLevel s m := by
  have word : ∀ off, 0x40 ≤ off → off + 3 < 0x60 → shadowWord t.shadow off = shadowWord s.shadow off := by
    intro off lower upper
    rw [shadowWord, definitions _ ⟨by omega, by omega⟩, definitions _ ⟨by omega, by omega⟩,
      definitions _ ⟨by omega, by omega⟩, definitions _ ⟨by omega, by omega⟩, shadowWord]
  have mask : indicatorMask t.shadow m = indicatorMask s.shadow m :=
    funext fun src => by rw [indicatorMask, word _ (by omega) (by omega), indicatorMask]
  have all : indicatorAll t.shadow m = indicatorAll s.shadow m := by
    rw [indicatorAll, word _ (by omega) (by omega), indicatorAll]
  have invert : indicatorInvert t.shadow m = indicatorInvert s.shadow m := by
    rw [indicatorInvert, word _ (by omega) (by omega), indicatorInvert]
  have stale : isStale t = isStale s := funext fun src => by rw [isStale, states, isStale]
  rw [indicatorLevel, mask, all, invert, stale, indicatorLevel]

/-- Every line stands at the value it is driven to. -/
def Driven (s : State) : Prop := ∀ m : Fin 4, s.indicators[m] = indicatorLevel s m

theorem indicatorsFollow_iff_of_released {s : State} (released : s.ponrst = false) :
    IndicatorsFollow s ↔ Driven s := by
  simp only [IndicatorsFollow, Driven, released, true_and, ← indicatorLevel_iff]
  exact forall_congr' fun m => Bool.eq_iff_iff.symm

theorem indicatorsFollow_iff_of_asserted {s : State} (asserted : s.ponrst = true) :
    IndicatorsFollow s ↔ ∀ m : Fin 4, s.indicators[m] = false := by
  refine forall_congr' fun m => ?_
  rw [asserted]
  simp

theorem driven_evaluateIndicators (s : State) : Driven (evaluateIndicators s) := fun m => by
  show (Vector.ofFn (indicatorLevel s))[m] = _
  rw [Fin.getElem_fin, Vector.getElem_ofFn]
  exact (indicatorLevel_congr (fun _ => rfl) (fun _ _ => rfl) m).symm

/-! ## What an operation does to the lines -/

/-- The lines, the cadence states and the shadow are the same. -/
structure Same (s t : State) : Prop where
  ponrst : t.ponrst = s.ponrst
  indicators : t.indicators = s.indicators
  states : ∀ src : SourceId, t.cadence[src].state = s.cadence[src].state
  shadow : t.shadow = s.shadow

/-- The same, with no posting flag taken back. -/
structure Kept (s t : State) : Prop extends Same s t where
  flags : s.poster.flags ⊆ t.poster.flags

/-- A change of a line flags the lines' word, and no posting flag is taken back. -/
structure Told (s t : State) : Prop where
  ponrst : t.ponrst = s.ponrst
  changed : t.indicators ≠ s.indicators → .indicators ∈ t.poster.flags
  flags : s.poster.flags ⊆ t.poster.flags

/-- Lines that stood at their values do so again. -/
structure Tracks (s t : State) : Prop extends Told s t where
  driven : Driven s → Driven t

theorem Same.driven {s t : State} (h : Same s t) (driven : Driven s) : Driven t := fun m => by
  rw [h.indicators, driven m]
  exact (indicatorLevel_congr h.states (fun _ _ => by rw [h.shadow]) m).symm

theorem Same.refl (s : State) : Same s s := ⟨rfl, rfl, fun _ => rfl, rfl⟩

theorem Same.trans {s t u : State} (h : Same s t) (k : Same t u) : Same s u :=
  ⟨k.ponrst.trans h.ponrst, k.indicators.trans h.indicators, fun src => (k.states src).trans (h.states src),
    k.shadow.trans h.shadow⟩

theorem Kept.refl (s : State) : Kept s s := ⟨.refl s, List.Subset.refl _⟩

theorem Kept.trans {s t u : State} (h : Kept s t) (k : Kept t u) : Kept s u :=
  ⟨h.toSame.trans k.toSame, List.Subset.trans h.flags k.flags⟩

theorem Told.of_unchanged {s t : State} (ponrst : t.ponrst = s.ponrst) (unchanged : t.indicators = s.indicators)
    (flags : s.poster.flags ⊆ t.poster.flags) : Told s t :=
  ⟨ponrst, fun changed => absurd unchanged changed, flags⟩

theorem Told.refl (s : State) : Told s s := .of_unchanged rfl rfl (List.Subset.refl _)

theorem Told.trans {s t u : State} (h : Told s t) (k : Told t u) : Told s u where
  ponrst := k.ponrst.trans h.ponrst
  flags := List.Subset.trans h.flags k.flags
  changed changed := by
    by_cases later : u.indicators = t.indicators
    · exact k.flags (h.changed (later ▸ changed))
    · exact k.changed later

theorem Tracks.refl (s : State) : Tracks s s := ⟨.refl s, id⟩

theorem Tracks.trans {s t u : State} (h : Tracks s t) (k : Tracks t u) : Tracks s u :=
  ⟨h.toTold.trans k.toTold, k.driven ∘ h.driven⟩

theorem Kept.toTold {s t : State} (h : Kept s t) : Told s t := .of_unchanged h.ponrst h.indicators h.flags

theorem Kept.toTracks {s t : State} (h : Kept s t) : Tracks s t := ⟨h.toTold, h.toSame.driven⟩

theorem Told.tracks {s t : State} (h : Told s t) (driven : Driven t) : Tracks s t := ⟨h, fun _ => driven⟩

theorem kept_foldl {α : Type} {f : State → α → State} (hf : ∀ s x, Kept s (f s x)) (l : List α) (s : State) :
    Kept s (l.foldl f s) :=
  foldl_keeps Kept.refl Kept.trans f hf l s

theorem told_foldl {α : Type} {f : State → α → State} (hf : ∀ s x, Told s (f s x)) (l : List α) (s : State) :
    Told s (l.foldl f s) :=
  foldl_keeps Told.refl Told.trans f hf l s

theorem tracks_foldl {α : Type} {f : State → α → State} (hf : ∀ s x, Tracks s (f s x)) (l : List α) (s : State) :
    Tracks s (l.foldl f s) :=
  foldl_keeps Tracks.refl Tracks.trans f hf l s

/-- Once one action has driven the lines, the later ones keep them driven. -/
theorem driven_foldl {α : Type} {f : State → α → State} (hf : ∀ s x, Tracks s (f s x)) {l : List α} {x : α}
    (hx : x ∈ l) (driven : ∀ s, Driven (f s x)) (s : State) : Driven (l.foldl f s) := by
  obtain ⟨before, after, rfl⟩ := List.append_of_mem hx
  rw [List.foldl_append, List.foldl_cons]
  exact (tracks_foldl hf after _).driven (driven _)

theorem inEitherOrder_keeps {R : State → State → Prop} (trans : ∀ {s t u}, R s t → R t u → R s u)
    (choices : ∀ n s, R s { s with choices := n }) {f g : State → State} (hf : ∀ s, R s (f s)) (hg : ∀ s, R s (g s))
    (s : State) : R s (inEitherOrder f g s) := by
  unfold inEitherOrder
  exact ite_keeps (trans (trans (choices _ s) (hf _)) (hg _)) (trans (trans (choices _ s) (hg _)) (hf _))

/-! ## Posting flags -/

/-- No other item lies at the offset of the lines' word (R172). -/
theorem eq_indicators_of_itemOffset {i : PostItem} (h : itemOffset i = 0x228) : i = .indicators := by
  cases i with
  | indicators => rfl
  | _ =>
    dsimp only [itemOffset] at h
    omega

theorem mem_insertItem_indicators (l : List PostItem) : .indicators ∈ insertItem .indicators l := by
  induction l with
  | nil => exact List.mem_singleton_self _
  | cons i rest ih =>
    unfold insertItem
    split
    · exact List.mem_cons_self
    · split
      · next same => exact eq_indicators_of_itemOffset same.symm ▸ List.mem_cons_self
      · exact List.mem_cons_of_mem i ih

theorem flags_flaggedIf (changed : Bool) (i : PostItem) (p : Poster) : p.flags ⊆ (flaggedIf changed i p).flags :=
  fun _ h => mem_flaggedIf_of_mem changed h

/-- An update of what no line depends on that sets a posting flag. -/
theorem Kept.of_flaggedIf {s t : State} {changed : Bool} {i : PostItem} (same : Same s t)
    (poster : t.poster = flaggedIf changed i s.poster) : Kept s t :=
  ⟨same, poster ▸ flags_flaggedIf changed i s.poster⟩

theorem Kept.of_poster {s t : State} (same : Same s t) (poster : t.poster = s.poster) : Kept s t :=
  ⟨same, poster ▸ List.Subset.refl _⟩

theorem flagIf_kept (changed : Bool) (i : PostItem) (s : State) : Kept s (flagIf changed i s) :=
  .of_flaggedIf ⟨rfl, rfl, fun _ => rfl, rfl⟩ rfl

theorem flag_kept (i : PostItem) (s : State) : Kept s (flag i s) := flagIf_kept true i s

theorem flagAll_kept (items : List PostItem) (s : State) : Kept s (flagAll items s) :=
  kept_foldl (fun s i => flag_kept i s) items s

theorem postEvent_kept (e : Event) (s : State) : Kept s (postEvent e s) :=
  ⟨⟨rfl, rfl, fun _ => rfl, rfl⟩, fun _ => mem_flags_postEvent e⟩

theorem updateIrq_kept (s : State) : Kept s (updateIrq s) := .of_poster ⟨rfl, rfl, fun _ => rfl, rfl⟩ rfl

theorem advanceProducer_kept (s : State) : Kept s (advanceProducer s) :=
  ⟨⟨rfl, rfl, fun _ => rfl, rfl⟩, flags_flaggedIf _ _ _⟩

theorem consumerWritten_kept (s : State) : Kept s (consumerWritten s) := by
  refine ⟨⟨rfl, rfl, fun _ => rfl, rfl⟩, ?_⟩
  show s.poster.flags ⊆ (overflowReported s.shadow s.wallTime s.poster).flags
  unfold overflowReported
  split
  · exact flags_flaggedIf true .producer (allocated s.wallTime _ s.poster)
  · exact List.Subset.refl _

theorem choices_kept (n : Nat) (s : State) : Kept s { s with choices := n } :=
  .of_poster ⟨rfl, rfl, fun _ => rfl, rfl⟩ rfl

/-! ## The Fill Engine keeps the lines -/

theorem setCount_kept (w : WindowId) (n : Nat) (s : State) : Kept s (setCount w n s) :=
  .of_flaggedIf ⟨rfl, rfl, fun _ => rfl, rfl⟩ rfl

theorem setChannel_kept (c : ChannelId) (ch : Channel) (s : State) : Kept s (setChannel c ch s) :=
  .of_flaggedIf ⟨rfl, rfl, fun _ => rfl, rfl⟩ rfl

theorem exposure_kept (l : List ResolveEntry) (s : State) : Kept s { s with exposure := l } :=
  .of_poster ⟨rfl, rfl, fun _ => rfl, rfl⟩ rfl

theorem marking_kept (l : List BorderEntry) (s : State) : Kept s { s with marking := l } :=
  .of_poster ⟨rfl, rfl, fun _ => rfl, rfl⟩ rfl

theorem moveChannel_kept (c : ChannelId) (st : ChannelState) (s : State) : Kept s (moveChannel c st s) :=
  setChannel_kept c _ s

theorem entryJoined_kept (c : ChannelId) (s : State) : Kept s (entryJoined c s) := by
  unfold entryJoined
  exact ite_keeps (ite_keeps (moveChannel_kept _ _ s) (moveChannel_kept _ _ s)) (.refl s)

theorem entryEnded_kept (c : ChannelId) (s : State) : Kept s (entryEnded c s) := by
  unfold entryEnded
  exact ite_keeps ((moveChannel_kept _ _ s).trans (moveChannel_kept _ _ _))
    (ite_keeps (moveChannel_kept _ _ s) (.refl s))

theorem emptiedByDiscards_kept (c : ChannelId) (s : State) : Kept s (emptiedByDiscards c s) := by
  unfold emptiedByDiscards
  exact ite_keeps ((moveChannel_kept _ _ s).trans (moveChannel_kept _ _ _)) (moveChannel_kept _ _ s)

theorem lowerCause_kept (e : ResolveEntry) (s : State) : Kept s (lowerCause e s) := by
  unfold lowerCause
  split
  · exact .refl s
  · exact setCount_kept _ _ s

theorem lowerCauses_kept (es : List ResolveEntry) (s : State) : Kept s (lowerCauses es s) :=
  kept_foldl (fun s e => lowerCause_kept e s) es s

theorem dropHead_kept (c : ChannelId) (s : State) : Kept s (dropHead c s) := by
  cases c with
  | zero =>
    unfold dropHead
    dsimp only
    split
    · exact .refl s
    · exact (exposure_kept _ s).trans (lowerCause_kept _ _)
  | one => exact marking_kept _ s

theorem endCurrent_kept (c : ChannelId) (o : LastOutcome) (s : State) : Kept s (endCurrent c o s) :=
  ((dropHead_kept c s).trans (setChannel_kept c _ _)).trans (entryEnded_kept c _)

theorem joinExposure_kept (es : List ResolveEntry) (s : State) : Kept s (joinExposure es s) := by
  unfold joinExposure
  split
  · exact .refl s
  · refine ((exposure_kept _ s).trans (kept_foldl (fun s e => ?_) _ _)).trans (entryJoined_kept _ _)
    split
    · exact .refl s
    · exact setCount_kept _ _ s

theorem joinMarking_kept (es : List BorderEntry) (s : State) : Kept s (joinMarking es s) := by
  unfold joinMarking
  split
  · exact .refl s
  · exact (marking_kept _ s).trans (entryJoined_kept _ _)

theorem wholePanelFallback_kept (p : PanelId) (epoch : Half) (formed : Nat) (s : State) :
    Kept s (wholePanelFallback p epoch formed s) := by
  unfold wholePanelFallback
  have removed := fun left es => (exposure_kept left s).trans (lowerCauses_kept es _)
  exact ite_keeps (((removed _ _).trans (joinExposure_kept _ _)).trans (postEvent_kept _ _))
    ((removed _ _).trans (postEvent_kept _ _))

theorem fillAtSwitch_kept (p : PanelId) (l : Layout) (s : State) : Kept s (fillAtSwitch p l s) := by
  unfold fillAtSwitch
  exact ite_keeps (joinExposure_kept _ s) (wholePanelFallback_kept _ _ _ s)

theorem markStale_kept (src : SourceId) (s : State) : Kept s (markStale src s) := by
  unfold markStale
  exact ite_keeps ((joinMarking_kept _ s).trans (postEvent_kept _ _)) (joinMarking_kept _ s)

theorem setRowsDone_kept (c : ChannelId) (n : Nat) (s : State) : Kept s (setRowsDone c n s) := by
  unfold setRowsDone
  cases c <;> dsimp only <;> split
  · exact .refl s
  · exact exposure_kept _ s
  · exact .refl s
  · exact marking_kept _ s

theorem beginRow_kept (c : ChannelId) (n : Nat) (s : State) : Kept s (beginRow c n s) :=
  (setRowsDone_kept c _ s).trans (setChannel_kept c _ _)

theorem discardExposure_kept (l : List ResolveEntry) (s : State) : Kept s (discardExposure l s) := by
  induction l generalizing s with
  | nil => exact exposure_kept _ s
  | cons e rest ih =>
    unfold discardExposure
    exact ite_keeps (exposure_kept _ s) (((exposure_kept rest s).trans (lowerCause_kept _ _)).trans (ih _))

theorem discardHeads_kept (c : ChannelId) (s : State) : Kept s (discardHeads c s) := by
  cases c with
  | zero => exact discardExposure_kept _ s
  | one =>
    unfold discardHeads
    dsimp only
    split <;> exact marking_kept _ s

theorem startEntry_kept (c : ChannelId) (s : State) : Kept s (startEntry c s) := by
  unfold startEntry
  have discarded := discardHeads_kept c s
  exact ite_keeps (discarded.trans (emptiedByDiscards_kept c _))
    (((discarded.trans (setChannel_kept c _ _)).trans (setRowsDone_kept c 0 _)).trans (beginRow_kept c 0 _))

theorem startDue_kept (s : State) : Kept s (startDue s) := by
  unfold startDue
  split
  · exact .refl s
  · exact startEntry_kept _ s

theorem completeDue_kept (s : State) : Kept s (completeDue s) := by
  unfold completeDue
  split
  · exact .refl s
  · exact endCurrent_kept _ _ s

theorem answered_kept (c : ChannelId) (s : State) : Kept s (answered c s) := setChannel_kept c _ s

theorem channelFault_kept (c : ChannelId) (o : LastOutcome) (s : State) : Kept s (channelFault c o s) := by
  unfold channelFault
  exact ite_keeps ((answered_kept c s).trans (endCurrent_kept c o _)) (answered_kept c s)

theorem clearFills_kept (s : State) : Kept s (clearFills s) := by
  have emptied : Kept s { s with exposure := [], marking := [] } := (exposure_kept [] s).trans (marking_kept [] _)
  exact (emptied.trans (lowerCauses_kept s.exposure _)).trans (.of_flaggedIf ⟨rfl, rfl, fun _ => rfl, rfl⟩ rfl)

theorem resetFills_kept (s : State) : Kept s (resetFills s) := .of_flaggedIf ⟨rfl, rfl, fun _ => rfl, rfl⟩ rfl

/-! ## The Expansion Queue and the pass-through path keep the lines -/

theorem setQueue_kept (q : List Record) (s : State) : Kept s (setQueue q s) :=
  .of_flaggedIf ⟨rfl, rfl, fun _ => rfl, rfl⟩ rfl

theorem answer_kept (t : Txn) (st : Status) (s : State) : Kept s (answer t st s) :=
  .of_poster ⟨rfl, rfl, fun _ => rfl, rfl⟩ rfl

theorem holds_kept (l : List Held) (s : State) : Kept s { s with holds := l } :=
  .of_poster ⟨rfl, rfl, fun _ => rfl, rfl⟩ rfl

theorem enterPass_kept (t : Txn) (s : State) : Kept s (enterPass t s) := by
  unfold enterPass
  exact ite_keeps (.of_poster ⟨rfl, rfl, fun _ => rfl, rfl⟩ rfl) (.of_poster ⟨rfl, rfl, fun _ => rfl, rfl⟩ rfl)

theorem enqueue_kept (r : Record) (s : State) : Kept s (enqueue r s) := setQueue_kept _ s

theorem expandFrom_kept (fuel : Nat) (run : Run) (place : Position) (s : State) :
    Kept s (expandFrom fuel run place s).1 := by
  induction fuel generalizing place s with
  | zero => exact .refl s
  | succ fuel ih =>
    unfold expandFrom
    split
    · exact .refl s
    · split
      · exact (enqueue_kept _ s).trans (ih _ _)
      · exact .refl s

theorem expandStretch_kept {run : Run} {place : Position} {s s' : State} {end_ : Stretch}
    (h : expandStretch run place s = (s', end_)) : Kept s s' :=
  congrArg (fun q => Kept s q.1) h ▸ expandFrom_kept _ run place s

theorem finishAperture_kept (t : Txn) (src : SourceId) (s : State) : Kept s (finishAperture t src s) := by
  unfold finishAperture
  split
  · exact answer_kept _ _ s
  · exact enterPass_kept _ s

theorem walkTurns_kept (l : List Held) (s : State) : Kept s (walkTurns l s).1 := by
  induction l generalizing s with
  | nil => exact .refl s
  | cons h rest ih =>
    unfold walkTurns
    split
    · exact (finishAperture_kept _ _ s).trans (ih _)
    · split
      · exact (enqueue_kept _ s).trans (ih _)
      · exact ih s

theorem walkContinue_kept (l : List (Held × Bool)) (s : State) : Kept s (walkContinue l s).1 := by
  induction l generalizing s with
  | nil => exact .refl s
  | cons turn rest ih =>
    obtain ⟨h, taken⟩ := turn
    cases taken with
    | false => exact ih s
    | true =>
      unfold walkContinue
      split
      · next hx => exact ((expandStretch_kept hx).trans (finishAperture_kept _ _ _)).trans (ih _)
      · next hx => exact (expandStretch_kept hx).trans (ih _)

theorem walk_kept (s : State) : Kept s (walk s) :=
  ((walkTurns_kept s.holds s).trans (walkContinue_kept _ _)).trans (holds_kept _ _)

theorem purge_kept (p : PanelId) (epoch : Half) (s : State) : Kept s (purge p epoch s) :=
  (ite_keeps (R := Kept) (.refl s) (setQueue_kept _ s)).trans (walk_kept _)

theorem overrun_kept (flags : Vector Bool 32) (s : State) : Kept s { s with overrun := flags } :=
  .of_poster ⟨rfl, rfl, fun _ => rfl, rfl⟩ rfl

theorem liveOverrun_kept (by_ : Initiator) (run : Run) (r : Record) (s : State) :
    Kept s (liveOverrun by_ run r s) := by
  unfold liveOverrun
  exact ite_keeps (.refl s) ((overrun_kept _ s).trans (postEvent_kept _ _))

theorem expandNew_kept (t : Txn) (run : Run) (s : State) : Kept s (expandNew t run s) := by
  unfold expandNew
  split
  · next hx => exact (expandStretch_kept hx).trans (finishAperture_kept _ _ _)
  · next hx =>
    split
    · exact ((expandStretch_kept hx).trans (liveOverrun_kept _ _ _ _)).trans (finishAperture_kept _ _ _)
    · exact (expandStretch_kept hx).trans (holds_kept _ _)

/-! ## Layouts, panels and the commit keep the lines -/

theorem setGate_kept (w : WindowId) (g : Gate) (s : State) : Kept s (setGate w g s) :=
  .of_flaggedIf ⟨rfl, rfl, fun _ => rfl, rfl⟩ rfl

theorem armGates_kept (ws : List WindowId) (s : State) : Kept s (armGates ws s) :=
  kept_foldl (fun s w => setGate_kept w .armed s) ws s

theorem openGates_kept (src : SourceId) (s : State) : Kept s (openGates src s) :=
  kept_foldl (fun s w => ite_keeps (setGate_kept w .opened s) (.refl s)) _ s

theorem putActive_kept (w : WindowId) (o : Option LayoutRecord) (s : State) : Kept s (putActive w o s) := by
  cases o with
  | none => exact .refl s
  | some r => exact .of_flaggedIf ⟨rfl, rfl, fun _ => rfl, rfl⟩ rfl

theorem putNext_kept (w : WindowId) (o : Option LayoutRecord) (s : State) : Kept s (putNext w o s) := by
  cases o with
  | none => exact .refl s
  | some r =>
    show Kept s (setNextRecord w r s)
    unfold setNextRecord
    split
    · exact .refl s
    · exact .of_poster ⟨rfl, rfl, fun _ => rfl, rfl⟩ rfl

theorem reportedSources_kept (inActive inNext : Option (Nat × Nat)) (s : State) :
    Kept s (reportedSources inActive inNext s).2 := by
  unfold reportedSources
  split
  · split
    · exact .refl s
    · exact choices_kept _ s
  all_goals exact .refl s

theorem reportMove_kept (w : WindowId) (m : Move) (inActive inNext : Option (Nat × Nat)) (s : State) :
    Kept s (reportMove w m inActive inNext s) := by
  unfold reportMove
  exact ite_keeps (.refl s) ((reportedSources_kept inActive inNext s).trans (postEvent_kept _ _))

theorem reportMoves_kept {report : Move → State → State} (hreport : ∀ m s, Kept s (report m s))
    (inActive inNext : Option Move) (s : State) : Kept s (reportMoves report inActive inNext s) := by
  unfold reportMoves
  split
  · exact ite_keeps (hreport _ s) (inEitherOrder_keeps (R := Kept) .trans choices_kept (hreport _) (hreport _) s)
  · exact hreport _ s
  · exact hreport _ s
  · exact .refl s

theorem evaluateWindow_kept (only : Option SourceId) (inActive : Bool) (w : WindowId) (s : State) :
    Kept s (evaluateWindow only inActive w s) := by
  have replaced := fun ra rn => (putActive_kept w ra s).trans (putNext_kept w rn _)
  unfold evaluateWindow
  exact (ite_keeps (R := Kept) ((replaced _ _).trans (setGate_kept w .armed _)) (replaced _ _)).trans
    (reportMoves_kept (fun m s => reportMove_kept w m _ _ s) _ _ _)

theorem evaluateFailover_kept (only : Option SourceId) (inActive : Bool) (s : State) :
    Kept s (evaluateFailover only inActive s) :=
  kept_foldl (fun s w => evaluateWindow_kept only inActive w s) _ s

theorem releaseFailover_kept (by_ : Initiator) (w : WindowId) (s : State) : Kept s (releaseFailover by_ w s) := by
  have replaced := fun ra rn =>
    ((putActive_kept w ra s).trans (putNext_kept w rn _)).trans (setGate_kept w .armed _)
  unfold releaseFailover
  exact ite_keeps (.refl s) (((replaced _ _).trans (reportedSources_kept _ _ _)).trans (postEvent_kept _ _))

theorem setPanelLayout_kept (p : PanelId) (c : Copy) (epoch : Half) (s : State) :
    Kept s (setPanelLayout p c epoch s) := .of_flaggedIf ⟨rfl, rfl, fun _ => rfl, rfl⟩ rfl

theorem setCommit_kept (c : Commit) (s : State) : Kept s (setCommit c s) :=
  .of_flaggedIf ⟨rfl, rfl, fun _ => rfl, rfl⟩ rfl

theorem commit_kept (c : Commit) (s : State) : Kept s { s with commit := c } :=
  .of_poster ⟨rfl, rfl, fun _ => rfl, rfl⟩ rfl

theorem setSync_kept (p : PanelId) (r : SyncRecord) (s : State) : Kept s (setSync p r s) :=
  .of_flaggedIf ⟨rfl, rfl, fun _ => rfl, rfl⟩ rfl

theorem completeCommit_kept (end_ : CommitState) (outcome : CommandOutcome) (s : State) :
    Kept s (completeCommit end_ outcome s) := by
  unfold completeCommit
  split
  · exact .refl s
  · next l _ =>
    have layouts : Kept s { s with active := l, next := none } := .of_poster ⟨rfl, rfl, fun _ => rfl, rfl⟩ rfl
    have panels := fun items => (layouts.trans (flagAll_kept items _)).trans
      (kept_foldl (fun s p => setPanelLayout_kept p .active l.epoch s) (List.finRange 32) _)
    exact (((panels _).trans (setCommit_kept _ _)).trans (postEvent_kept _ _)).trans (commit_kept _ _)

theorem movePanel_kept (p : PanelId) (l : Layout) (s : State) : Kept s (movePanel p l s) :=
  (((setPanelLayout_kept p .next l.epoch s).trans (purge_kept p l.epoch _)).trans (fillAtSwitch_kept p l _)).trans
    (setCommit_kept _ _)

theorem completeIfLast_kept (end_ : CommitState) (outcome : CommandOutcome) (s : State) :
    Kept s (completeIfLast end_ outcome s) :=
  ite_keeps (completeCommit_kept end_ outcome s) (.refl s)

theorem switchPanel_kept (end_ : CommitState) (outcome : CommandOutcome) (p : PanelId) (s : State) :
    Kept s (switchPanel end_ outcome p s) := by
  unfold switchPanel
  split
  · exact .refl s
  · exact ite_keeps ((movePanel_kept p _ s).trans (completeIfLast_kept end_ outcome _)) (.refl s)

theorem switchOnTime_kept (p : PanelId) (s : State) : Kept s (switchOnTime p s) := switchPanel_kept _ _ p s

theorem expireSwitchLimit_kept (s : State) : Kept s (expireSwitchLimit s) :=
  kept_foldl (fun s p => ite_keeps
    (((commit_kept _ s).trans (postEvent_kept _ _)).trans (switchOnTime_kept p _)) (.refl s)) _ s

theorem forceCommit_kept (s : State) : Kept s (forceCommit s) :=
  kept_foldl (fun s p => switchPanel_kept .forced .forced p s) _ s

theorem abandonCommit_kept (s : State) : Kept s (abandonCommit s) := by
  unfold abandonCommit
  exact ite_keeps (((setCommit_kept _ s).trans (postEvent_kept _ _)).trans (commit_kept _ _)) (.refl s)

theorem acceptInRun_kept (number : Half) (s : State) : Kept s (acceptInRun number s) := by
  have snapshot : ∀ epoch l, Kept s { s with epochCounter := epoch, next := some l } := fun _ _ =>
    .of_poster ⟨rfl, rfl, fun _ => rfl, rfl⟩ rfl
  have begun : Kept s (beginCommit number s) :=
    ((snapshot _ _).trans (armGates_kept _ _)).trans (setCommit_kept _ _)
  exact (begun.trans (evaluateFailover_kept none false _)).trans
    (kept_foldl (fun s p => ite_keeps (switchOnTime_kept p s) (.refl s)) _ _)

theorem commitInSetup_kept (by_ : Initiator) (number : Half) (s : State) :
    Kept s (commitInSetup by_ number s) := by
  have replaced : ∀ epoch l, Kept s { s with epochCounter := epoch, active := l } := fun _ _ =>
    .of_poster ⟨rfl, rfl, fun _ => rfl, rfl⟩ rfl
  unfold commitInSetup
  dsimp only
  refine Kept.trans (Kept.trans (Kept.trans ?_ (setCommit_kept _ _)) (evaluateFailover_kept none true _))
    (postEvent_kept _ _)
  refine Kept.trans ?_ (kept_foldl (fun s p => setPanelLayout_kept p .active _ s) _ _)
  exact ((replaced _ _).trans (flagAll_kept _ _)).trans (armGates_kept _ _)

theorem refuseCommit_kept (by_ : Initiator) (number : Half) (r : CommitRefusal) (s : State) :
    Kept s (refuseCommit by_ number r s) :=
  (setCommit_kept _ s).trans (postEvent_kept _ _)

theorem commandCommit_kept (by_ : Initiator) (number : Half) (s : State) :
    Kept s (commandCommit by_ number s).1 := by
  unfold commandCommit
  split
  · exact .refl s
  · split
    · exact refuseCommit_kept by_ number _ s
    · split <;> dsimp only
      · exact acceptInRun_kept _ s
      · exact commitInSetup_kept _ _ s

theorem snoop_kept (p : PanelId) (t : Txn) (s : State) : Kept s (snoop p t s) := by
  unfold snoop
  exact ite_keeps ((setSync_kept _ _ s).trans (switchOnTime_kept p _)) (setSync_kept _ _ s)

theorem becomeUnsynced_kept (p : PanelId) (cause : Nat) (s : State) : Kept s (becomeUnsynced p cause s) := by
  unfold becomeUnsynced
  exact ite_keeps (.refl s) (((setSync_kept _ _ s).trans (postEvent_kept _ _)).trans (switchOnTime_kept p _))

theorem latchSync_kept (old new : Geometry) (p : PanelId) (s : State) : Kept s (latchSync old new p s) := by
  unfold latchSync
  split
  · exact ite_keeps (becomeUnsynced_kept _ _ s) (.refl s)
  · exact .refl s
  · exact (setSync_kept _ _ s).trans (flag_kept _ _)

theorem latchGeometry_kept (s : State) : Kept s (latchGeometry s) := by
  have latched : ∀ g l, Kept s { s with geometry := g, holds := l } := fun _ _ =>
    .of_poster ⟨rfl, rfl, fun _ => rfl, rfl⟩ rfl
  exact ((latched _ _).trans (kept_foldl (fun s p => latchSync_kept _ _ p s) _ _)).trans (clearFills_kept _)

/-! ## Ownership and the tag table keep the lines -/

theorem setOwner_kept (w : WindowId) (o : Owner) (s : State) : Kept s (setOwner w o s) :=
  .of_flaggedIf ⟨rfl, rfl, fun _ => rfl, rfl⟩ rfl

theorem requestEffect_kept (by_ : Initiator) (w : WindowId) (code : Nat) (s : State) :
    Kept s (requestEffect by_ w code s) := by
  unfold requestEffect
  split
  · exact ite_keeps (setOwner_kept _ _ s) (.refl s)
  · exact setOwner_kept _ _ s
  · split
    · exact setOwner_kept _ _ s
    · exact ite_keeps (.refl s) ((setOwner_kept _ _ s).trans (postEvent_kept _ _))
  · exact .refl s

theorem setTag_kept (t : Tag) (e : TagState) (s : State) : Kept s (setTag t e s) :=
  .of_poster ⟨rfl, rfl, fun _ => rfl, rfl⟩ rfl

theorem issueOwn_kept (t : Tag) (own : OwnWrite) (txn : Txn) (s : State) : Kept s (issueOwn t own txn s) :=
  .of_poster ⟨rfl, rfl, fun _ => rfl, rfl⟩ rfl

theorem reportExhausted_kept (s : State) : Kept s (reportExhausted s) := by
  unfold reportExhausted
  have spent : Kept s { s with exhaustion := .spent } := .of_poster ⟨rfl, rfl, fun _ => rfl, rfl⟩ rfl
  exact ite_keeps (spent.trans (postEvent_kept _ _)) (.refl s)

theorem quarantineTag_kept (t : Tag) (s : State) : Kept s (quarantineTag t s) :=
  ((setTag_kept _ _ s).trans (flag_kept _ _)).trans (reportExhausted_kept _)

theorem quarantineAll_kept (s : State) : Kept s (quarantineAll s) := by
  have tags : ∀ tags, Kept s { s with tags := tags } := fun _ => .of_poster ⟨rfl, rfl, fun _ => rfl, rfl⟩ rfl
  exact ((tags _).trans (flagIf_kept _ _ _)).trans (reportExhausted_kept _)

theorem postEnded_kept (off : Nat) (s : State) : Kept s (postEnded off s) := by
  have marked : ∀ issued, Kept s { s with poster := { s.poster with issued := issued } } := fun _ =>
    ⟨⟨rfl, rfl, fun _ => rfl, rfl⟩, List.Subset.refl _⟩
  unfold postEnded
  split
  · exact .refl s
  · exact (marked _).trans (advanceProducer_kept _)

theorem originFault_kept (own : OwnWrite) (o : LastOutcome) (s : State) : Kept s (originFault own o s) := by
  cases own with
  | expansion => exact .refl s
  | fill => exact channelFault_kept _ _ s
  | post => exact postEnded_kept _ s

theorem originDone_kept (own : OwnWrite) (s : State) : Kept s (originDone own s) := by
  cases own with
  | expansion => exact .refl s
  | fill => exact answered_kept _ s
  | post => exact postEnded_kept _ s

theorem ownResponse_kept (linkTag : Byte) (st : Status) (s : State) : Kept s (ownResponse linkTag st s) := by
  unfold ownResponse
  split
  · dsimp only
    split
    · exact .refl s
    · exact .of_flaggedIf ⟨rfl, rfl, fun _ => rfl, rfl⟩ rfl
    · split
      · exact (setTag_kept _ _ s).trans (originDone_kept _ _)
      · exact (ite_keeps ((setTag_kept _ .free s).trans (postEvent_kept _ _)) (setTag_kept _ .free s)).trans
          (originFault_kept _ _ _)
  · exact .refl s

theorem storePortResponse_kept (r : Response) (s : State) : Kept s (storePortResponse r s) := by
  unfold storePortResponse
  exact ite_keeps (ownResponse_kept _ _ s) (.of_poster ⟨rfl, rfl, fun _ => rfl, rfl⟩ rfl)

theorem expireTag_kept (t : Tag) (s : State) : Kept s (expireTag t s) := by
  unfold expireTag
  split
  · have expired := fun own => (quarantineTag_kept t s).trans (originFault_kept own .timeout _)
    exact ite_keeps ((expired _).trans (postEvent_kept _ _)) (expired _)
  · exact .refl s

/-! ## A grant keeps the lines

A grant of a posted item clears its flag, so no posting flag is claimed. -/

theorem grantExpansion_same (tag : Tag) (s : State) : Same s (grantExpansion tag s) := by
  unfold grantExpansion
  split
  · exact .refl s
  · exact (((setQueue_kept _ s).trans (issueOwn_kept _ _ _ _)).trans (walk_kept _)).toSame

theorem fillIssued_kept (c : ChannelId) (s : State) : Kept s (fillIssued c s) := by
  unfold fillIssued
  exact ite_keeps ((setChannel_kept _ _ s).trans (beginRow_kept _ _ _)) (setChannel_kept _ _ s)

theorem grantFill_same (tag : Tag) (s : State) : Same s (grantFill tag s) := by
  unfold grantFill
  split
  · exact .refl s
  · exact ((issueOwn_kept _ _ _ s).trans (fillIssued_kept _ _)).toSame

theorem grantEvent_same (tag : Tag) (s : State) : Same s (grantEvent tag s) := by
  unfold grantEvent
  split
  · exact .refl s
  · exact ⟨rfl, rfl, fun _ => rfl, rfl⟩

theorem grantItem_same (tag : Tag) (s : State) : Same s (grantItem tag s) := by
  unfold grantItem
  split
  · exact .refl s
  · exact ⟨rfl, rfl, fun _ => rfl, rfl⟩

theorem grantPost_same (tag : Tag) (s : State) : Same s (grantPost tag s) := by
  unfold grantPost
  split
  · exact .refl s
  · exact grantEvent_same tag s
  · exact grantItem_same tag s

theorem withFreeTag_same {f : Tag → State → State} (hf : ∀ tag s, Same s (f tag s)) (s : State) :
    Same s (withFreeTag f s) := by
  unfold withFreeTag
  split
  · exact .refl s
  · exact hf _ s

theorem grant_same (r : Requester) (s : State) : Same s (grant r s) := by
  cases r with
  | pass =>
    show Same s (grantPass s)
    unfold grantPass
    split
    · exact .refl s
    · exact ⟨rfl, rfl, fun _ => rfl, rfl⟩
  | expansion => exact withFreeTag_same grantExpansion_same s
  | fill => exact withFreeTag_same grantFill_same s
  | post => exact withFreeTag_same grantPost_same s

theorem opportunity_same (s : State) : Same s (opportunity s) := by
  have granted : ∀ r, Same s { s with lastGranted := r } := fun _ => ⟨rfl, rfl, fun _ => rfl, rfl⟩
  unfold opportunity
  split
  · exact .refl s
  · exact (granted _).trans (grant_same _ _)

/-! ## Changes of cadence states -/

theorem evaluateIndicators_told (s : State) : Told s (evaluateIndicators s) := by
  refine ⟨rfl, fun changed => ?_, flags_flaggedIf _ _ _⟩
  have differ : (s.indicators != Vector.ofFn (indicatorLevel s)) = true := bne_iff_ne.2 (Ne.symm changed)
  show PostItem.indicators ∈ (flaggedIf _ _ _).flags
  rw [differ]
  exact mem_insertItem_indicators _

theorem evaluated_tracks {s t : State} (h : Told s t) : Tracks s (evaluateIndicators t) :=
  (h.trans (evaluateIndicators_told t)).tracks (driven_evaluateIndicators t)

theorem setCadence_told (src : SourceId) (c : Cadence) (s : State) : Told s (setCadence src c s) :=
  .of_unchanged rfl rfl (flags_flaggedIf _ _ _)

theorem setCadence_kept {src : SourceId} {c : Cadence} {s : State} (sameState : c.state = s.cadence[src].state) :
    Kept s (setCadence src c s) := by
  refine .of_flaggedIf ⟨rfl, rfl, fun other => ?_, rfl⟩ rfl
  rw [setCadence_cadence]
  by_cases here : src = other
  · subst here
    rw [put_self, sameState]
  · rw [put_of_ne _ _ _ _ here]

theorem cadenceMoved_tracks {s t : State} (src : SourceId) (h : Told s t) : Tracks s (cadenceMoved src t) :=
  evaluated_tracks (h.trans (evaluateFailover_kept _ _ t).toTold)

theorem awaitAll_tracks {s t : State} (h : Told s t) : Tracks s (awaitAll t) :=
  evaluated_tracks ((h.trans (told_foldl (fun s src => setCadence_told src _ s) _ t)).trans
    (kept_foldl (fun s src => evaluateFailover_kept (some src) true s) _ _).toTold)

theorem staleEvaluations_kept (src : SourceId) (left : CadenceState) (c : Cadence) (s : State) :
    Kept s (inEitherOrder (markStale src) (evaluateFailover (some src) true)
      (if left = .recovering then s else postEvent (evSourceStale src left c.baseline c.elapsed) s)) :=
  (ite_keeps (R := Kept) (.refl s) (postEvent_kept _ s)).trans
    (inEitherOrder_keeps (R := Kept) .trans choices_kept (markStale_kept src) (evaluateFailover_kept (some src) true) _)

theorem staleEffects_tracks (src : SourceId) (left : CadenceState) (s : State) : Tracks s (staleEffects src left s) :=
  evaluated_tracks (staleEvaluations_kept src left _ s).toTold

theorem staleEffects_driven (src : SourceId) (left : CadenceState) (s : State) : Driven (staleEffects src left s) :=
  driven_evaluateIndicators _

/-- The sources that enter STALE at a tick: their records change first, and then each has its effects. -/
theorem enterStale_tracks {s t : State} (h : Kept s t) (due : List SourceId) (left : SourceId → CadenceState) :
    Tracks s (due.foldl (fun s src => staleEffects src (left src) s)
      (due.foldl (fun s src => setCadence src (staled s.cadence[src]) s) t)) := by
  have effects := fun s src => staleEffects_tracks src (left src) s
  cases due with
  | nil => exact h.toTracks
  | cons src rest =>
    have records := told_foldl (fun s src => setCadence_told src (staled s.cadence[src]) s) (src :: rest) t
    exact ((h.toTold.trans records).trans (tracks_foldl effects _ _).toTold).tracks
      (driven_foldl effects List.mem_cons_self (staleEffects_driven src (left src)) _)

theorem ticked_state (c : Cadence) : (ticked c).state = c.state := by
  unfold ticked
  split <;> rfl

theorem tickSources_tracks (s : State) : Tracks s (tickSources s) := by
  have risen : Kept s { s with cadence := Vector.ofFn fun src : Fin 32 => ticked s.cadence[src] } :=
    .of_poster ⟨rfl, rfl, fun src => by simp [ticked_state], rfl⟩ rfl
  exact enterStale_tracks risen _ fun src => (Vector.ofFn fun src : Fin 32 => ticked s.cadence[src])[src].state

theorem tick_tracks (s : State) : Tracks s (tick s) := by
  have later : Kept s { s with wallTime := nextTickTime s.wallTime } := .of_poster ⟨rfl, rfl, fun _ => rfl, rfl⟩ rfl
  exact ite_keeps (later.toTracks.trans (tickSources_tracks _)) later.toTracks

theorem cadenceFrame_tracks (src : SourceId) (s : State) : Tracks s (cadenceFrame src s) := by
  unfold cadenceFrame
  dsimp only
  split
  · next sameState => exact (setCadence_kept sameState).toTracks
  · have recorded := setCadence_told src (frameRecord s.shadow src s.cadence[src]) s
    exact cadenceMoved_tracks src (ite_keeps (recorded.trans (postEvent_kept _ _).toTold) recorded)

theorem frameStart_tracks (src : SourceId) (s : State) : Tracks s (frameStart src s) :=
  (overrun_kept _ s).toTracks.trans (inEitherOrder_keeps (R := Tracks) .trans (fun n s => (choices_kept n s).toTracks)
    (cadenceFrame_tracks src) (fun s => (openGates_kept src s).toTracks) _)

theorem takeAperture_tracks (t : Txn) (src : SourceId) (a : Aperture) (s : State) :
    Tracks s (takeAperture t src a s) :=
  (ite_keeps (R := Tracks) (frameStart_tracks src s) (.refl s)).trans (expandNew_kept t _ _).toTracks

theorem acceptEnable_tracks (src : SourceId) (s : State) : Tracks s (acceptEnable src s) := by
  have aperture : ∀ a, Kept s (setAperture src a s) := fun _ => .of_flaggedIf ⟨rfl, rfl, fun _ => rfl, rfl⟩ rfl
  exact cadenceMoved_tracks src (((aperture _).toTold.trans (setCadence_told src _ _)).trans (armGates_kept _ _).toTold)

theorem disableSource_tracks (src : SourceId) (s : State) : Tracks s (disableSource src s) := by
  have aperture : ∀ flags, Kept s (setAperture src none { s with overrun := flags }) := fun _ =>
    .of_flaggedIf ⟨rfl, rfl, fun _ => rfl, rfl⟩ rfl
  exact cadenceMoved_tracks src ((aperture _).toTold.trans (setCadence_told src _ _))

theorem enableWordWritten_tracks (by_ : Initiator) (src : SourceId) (s : State) :
    Tracks s (enableWordWritten by_ src s) := by
  unfold enableWordWritten
  split
  · unfold requestEnable
    split
    · exact (postEvent_kept _ s).toTracks
    · exact acceptEnable_tracks src s
  · exact disableSource_tracks src s
  · exact .refl s

/-! ## Commands -/

theorem resetQueue_kept (s : State) : Kept s (resetQueue s) := .of_flaggedIf ⟨rfl, rfl, fun _ => rfl, rfl⟩ rfl

theorem resetLayouts_told (s : State) : Told s (resetLayouts s) := .of_unchanged rfl rfl (List.Subset.refl _)

theorem resetOwners_kept (s : State) : Kept s (resetOwners s) :=
  kept_foldl (fun s w => ite_keeps (.refl s) (setOwner_kept w .free s)) _ s

theorem resetPoster_kept (s : State) : Kept s (resetPoster s) :=
  ⟨⟨rfl, rfl, fun _ => rfl, rfl⟩, fun i _ => mem_flags_resetPoster i s⟩

theorem wallReset_tracks (report : Event) (s : State) : Tracks s (wallReset report s) := by
  have first := inEitherOrder_keeps (R := Kept) .trans choices_kept abandonCommit_kept quarantineAll_kept s
  have layouts := (first.trans (resetQueue_kept _)).toTold.trans (resetLayouts_told _)
  have owners := (layouts.trans (resetFills_kept _).toTold).trans (resetOwners_kept _).toTold
  exact ((awaitAll_tracks owners).trans (resetPoster_kept _).toTracks).trans (postEvent_kept report _).toTracks

theorem setMode_kept (m : Mode) (s : State) : Kept s (setMode m s) :=
  .of_flaggedIf ⟨rfl, rfl, fun _ => rfl, rfl⟩ rfl

theorem commandRun_tracks (by_ : Initiator) (sequence : Half) (s : State) :
    Tracks s (commandRun by_ sequence s).1 := by
  unfold commandRun
  split
  · exact .refl s
  · split
    · exact .refl s
    · exact awaitAll_tracks (((latchGeometry_kept s).trans (setMode_kept .run _)).trans (postEvent_kept _ _)).toTold

theorem commandSetup_tracks (by_ : Initiator) (sequence : Half) (s : State) :
    Tracks s (commandSetup by_ sequence s).1 := by
  unfold commandSetup
  split
  · exact .refl s
  · exact awaitAll_tracks (((forceCommit_kept s).trans (setMode_kept .setup _)).trans (postEvent_kept _ _)).toTold

theorem commandReleaseFailover_kept (by_ : Initiator) (argument : Nat) (s : State) :
    Kept s (commandReleaseFailover by_ argument s).1 := by
  unfold commandReleaseFailover
  split
  · dsimp only
    split
    · exact .refl s
    · exact releaseFailover_kept _ _ s
  · exact .refl s

theorem commandAction_tracks (by_ : Initiator) (code : Nat) (sequence argument : Half) (s : State) :
    Tracks s (commandAction by_ code sequence argument s).1 := by
  unfold commandAction
  split
  · exact (commandCommit_kept _ _ s).toTracks
  · exact commandRun_tracks _ _ s
  · exact commandSetup_tracks _ _ s
  · exact wallReset_tracks _ s
  · exact (clearFills_kept s).toTracks
  · exact (commandReleaseFailover_kept _ _ s).toTracks
  · exact .refl s

theorem runCommand_tracks (by_ : Initiator) (s : State) : Tracks s (runCommand by_ s) := by
  have result : ∀ r s, Kept s (setResult r s) := fun _ _ => .of_flaggedIf ⟨rfl, rfl, fun _ => rfl, rfl⟩ rfl
  exact (commandAction_tracks _ _ _ _ s).trans (result _ _).toTracks

/-! ## Control writes -/

theorem bucketThresholdWritten_kept (src : SourceId) (before : Shadow) (s : State) :
    Kept s (bucketThresholdWritten src before s) := by
  unfold bucketThresholdWritten
  exact ite_keeps (setCadence_kept rfl) (.refl s)

theorem sourceEffect_tracks (by_ : Initiator) (before : Shadow) (src : SourceId) (inRecord : Nat) (s : State) :
    Tracks s (sourceEffect by_ before src inRecord s) := by
  unfold sourceEffect
  split
  · exact enableWordWritten_tracks by_ src s
  · exact (bucketThresholdWritten_kept src before s).toTracks
  · exact .refl s

theorem wordEffect_tracks (by_ : Initiator) (before : Shadow) (w : ControlWord) (s : State) :
    Tracks s (wordEffect by_ before w s) := by
  unfold wordEffect
  split
  · exact (updateIrq_kept s).toTracks
  split
  · exact evaluated_tracks (.refl s)
  split
  · exact runCommand_tracks by_ s
  split
  · exact (consumerWritten_kept s).toTracks
  split
  · exact sourceEffect_tracks _ _ _ _ s
  · split
    · exact (requestEffect_kept _ _ _ s).toTracks
    · exact .refl s

/-- A word of a line definition has the lines evaluated (R149). -/
theorem wordEffect_driven {w : ControlWord} (definition : IsDefinitionByte w.offset) (by_ : Initiator)
    (before : Shadow) (s : State) : Driven (wordEffect by_ before w s) := by
  obtain ⟨lower, upper⟩ := definition
  rw [wordEffect, if_neg (by omega), if_pos ⟨lower, upper⟩]
  exact driven_evaluateIndicators s

/-- Words lie at multiples of 4, so that one outside the line definitions touches none of their bytes. -/
theorem shadowRead_mergeWord_of_outside {m : Shadow} {w : ControlWord} {off : Nat} (aligned : w.offset % 4 = 0)
    (outside : ¬ IsDefinitionByte w.offset) (definition : IsDefinitionByte off) :
    shadowRead (mergeWord m w) off = shadowRead m off := by
  unfold IsDefinitionByte at outside definition
  refine shadowRead_writeBytes_other m w.offset off (wordBytes w.merged) ?_
  rw [wordBytes_length]
  omega

theorem shadowRead_mergeWords_of_outside {off : Nat} (definition : IsDefinitionByte off) {words : List ControlWord}
    (aligned : ∀ w ∈ words, w.offset % 4 = 0) (outside : ∀ w ∈ words, ¬ IsDefinitionByte w.offset) (m : Shadow) :
    shadowRead (words.foldl mergeWord m) off = shadowRead m off := by
  induction words generalizing m with
  | nil => rfl
  | cons w rest ih =>
    rw [List.forall_mem_cons] at aligned outside
    rw [List.foldl_cons, ih aligned.2 outside.2, shadowRead_mergeWord_of_outside aligned.1 outside.1 definition]

/-- The shadow phase may change the conditions of the lines, and then a word of the same write has them evaluated. -/
theorem acceptedWords_tracks {words : List ControlWord} (aligned : ∀ w ∈ words, w.offset % 4 = 0) (by_ : Initiator)
    (before : Shadow) (s : State) : Tracks s (effectsPhase by_ before words (shadowPhase words s)) := by
  have effects := fun s w => wordEffect_tracks by_ before w s
  have merged : Told s (shadowPhase words s) := .of_unchanged rfl rfl (List.Subset.refl _)
  refine ⟨merged.trans (tracks_foldl effects words _).toTold, fun driven => ?_⟩
  by_cases written : ∃ w ∈ words, IsDefinitionByte w.offset
  · obtain ⟨w, mem, definition⟩ := written
    exact driven_foldl effects mem (wordEffect_driven definition by_ before) _
  · have outside : ∀ w ∈ words, ¬ IsDefinitionByte w.offset := fun w mem inside => written ⟨w, mem, inside⟩
    have level := indicatorLevel_congr (s := s) (t := shadowPhase words s) (fun _ => rfl) fun _ definition =>
      shadowRead_mergeWords_of_outside definition aligned outside s.shadow
    exact (tracks_foldl effects words _).driven fun m => (driven m).trans (level m).symm

theorem reportRefused_kept (by_ : Initiator) (refused : List ControlWord) (s : State) :
    Kept s (reportRefused by_ refused s) := by
  cases refused with
  | nil => exact .refl s
  | cons => exact postEvent_kept _ s

theorem concludeControl_kept (t : Txn) (refused accepted : List ControlWord) (s : State) :
    Kept s (concludeControl t refused accepted s) :=
  ite_keeps (answer_kept _ _ s) (enterPass_kept _ s)

theorem takeWords_tracks {words : List ControlWord} (aligned : ∀ w ∈ words, w.offset % 4 = 0) (t : Txn) (s : State) :
    Tracks s (takeWords t words s) :=
  ((reportRefused_kept _ _ s).toTracks.trans
    (acceptedWords_tracks (fun w mem => aligned w ((List.mem_filter.1 mem).1)) _ _ _)).trans
      (concludeControl_kept t _ _ _).toTracks

theorem address_aligned {t : Txn} (wellFormed : malformedReason t = none) : t.address.toNat % 4 = 0 := by
  unfold malformedReason at wellFormed
  split at wellFormed
  · cases wellFormed
  split at wellFormed
  · cases wellFormed
  split at wellFormed
  · cases wellFormed
  split at wellFormed
  · cases wellFormed
  · next aligned => exact Decidable.not_not.1 aligned

theorem coveredWords_aligned {m : Shadow} {t : Txn} {start : Nat} (aligned : start % 4 = 0) {w : ControlWord}
    (mem : w ∈ coveredWords m t start) : w.offset % 4 = 0 := by
  obtain ⟨k, -, rfl⟩ := List.mem_map.1 mem
  show (start + 4 * k) % 4 = 0
  omega

theorem takeControl_tracks {t : Txn} (wellFormed : malformedReason t = none) (s : State) :
    Tracks s (takeControl t s) := by
  have address := address_aligned wellFormed
  have start : controlOffset s t % 4 = 0 := by
    simp only [controlOffset, controlBase, Config.strapUnit]
    omega
  exact takeWords_tracks (fun w => coveredWords_aligned start) t s

/-! ## The ingest port -/

theorem take_tracks (t : Txn) (s : State) : Tracks s (take t s) := by
  unfold take
  split
  · exact (ite_keeps (R := Kept) ((postEvent_kept _ s).trans (answer_kept _ _ _)) (enterPass_kept _ s)).toTracks
  · next wellFormed =>
    split
    · exact takeControl_tracks wellFormed s
    · exact takeAperture_tracks _ _ _ s
    · exact ((snoop_kept _ _ s).trans (enterPass_kept _ _)).toTracks
    · exact (enterPass_kept _ s).toTracks

theorem lines_kept (lines : Vector (List Txn) 16) (s : State) : Kept s { s with lines := lines } :=
  .of_poster ⟨rfl, rfl, fun _ => rfl, rfl⟩ rfl

theorem nextReady_kept {s s' : State} {i : Initiator} (h : nextReady s = some (i, s')) : Kept s s' := by
  unfold nextReady at h
  split at h
  · cases h
  · cases h
    exact .refl s
  · cases h
    exact choices_kept _ s

theorem serveLines_tracks (fuel : Nat) (s : State) : Tracks s (serveLines fuel s) := by
  induction fuel generalizing s with
  | zero => exact .refl s
  | succ fuel ih =>
    unfold serveLines
    split
    · exact .refl s
    · next ready =>
      have chosen := nextReady_kept ready
      split
      · exact chosen.toTracks
      · exact ((chosen.trans (lines_kept _ _)).toTracks.trans (take_tracks _ _)).trans (ih _)

theorem serve_tracks (s : State) : Tracks s (serve s) := ite_keeps (.refl s) (serveLines_tracks _ s)

/-! ## Steps -/

/-- What O57 says of one step. -/
structure LinesStepped (s t : State) : Prop where
  follow : IndicatorsFollow s → IndicatorsFollow t
  changed : t.indicators ≠ s.indicators → t.ponrst = false → .indicators ∈ t.poster.flags

theorem Same.stepped {s t : State} (h : Same s t) : LinesStepped s t := by
  refine ⟨fun follow => ?_, fun changed => absurd h.indicators changed⟩
  cases pin : s.ponrst with
  | false =>
    rw [indicatorsFollow_iff_of_released (h.ponrst.trans pin)]
    exact h.driven ((indicatorsFollow_iff_of_released pin).1 follow)
  | true =>
    rw [indicatorsFollow_iff_of_asserted (h.ponrst.trans pin), h.indicators]
    exact (indicatorsFollow_iff_of_asserted pin).1 follow

/-- In service, `Tracks` is what a step does to the lines. -/
theorem Tracks.stepped {s t : State} (h : Tracks s t) (released : s.ponrst = false) : LinesStepped s t where
  follow follow := (indicatorsFollow_iff_of_released (h.ponrst.trans released)).2
    (h.driven ((indicatorsFollow_iff_of_released released).1 follow))
  changed changed _ := h.changed changed

theorem LinesStepped.after_same {s t u : State} (h : Same s t) (k : LinesStepped t u) : LinesStepped s u :=
  ⟨fun follow => k.follow (h.stepped.follow follow), fun changed => k.changed (h.indicators.symm ▸ changed)⟩

theorem inService_stepped {f : State → State} {s t : State} (h : Same s t) (k : Tracks t (f s)) :
    LinesStepped s (inService f s) := by
  unfold inService
  split
  · exact (Same.refl s).stepped
  · next released =>
    have pin : t.ponrst = false := h.ponrst.trans (eq_false_of_ne_true released)
    exact .after_same h ((k.trans (serve_tracks _)).stepped pin)

theorem inService_stepped_of_tracks {f : State → State} {s : State} (h : Tracks s (f s)) :
    LinesStepped s (inService f s) :=
  inService_stepped (.refl s) h

/-- While PONRST is asserted an arrival waits, and the lines stay as they are (R164). -/
theorem arrive_stepped (t : Txn) (s : State) : LinesStepped s (arrive t s) := by
  unfold arrive
  split
  · next takes =>
    have released : s.ponrst = false := by
      simp only [canTake, Bool.and_eq_true, Bool.not_eq_true'] at takes
      exact takes.1.1
    exact ((take_tracks t s).trans (serve_tracks _)).stepped released
  · exact (lines_kept _ s).toSame.stepped

theorem assertReset_stepped (s : State) : LinesStepped s (assertReset s) :=
  ⟨fun _ => (indicatorsFollow_iff_of_asserted rfl).2 fun _ => Vector.getElem_replicate _,
    fun _ released => absurd released (by simp [assertReset])⟩

theorem powerOn_low (base : Byte) (prio : Initiator) (m : Fin 4) : (State.powerOn base prio).indicators[m] = false :=
  Vector.getElem_replicate _

theorem not_lineHolds_of_none_stale {s : State} (none_stale : ∀ src : SourceId, s.cadence[src].state ≠ .stale)
    (m : Fin 4) : ¬ LineHolds s m := by
  unfold LineHolds
  split
  · rintro ⟨⟨src, masked⟩, stale⟩
    exact none_stale src (stale src masked)
  · rintro ⟨src, -, stale⟩
    exact none_stale src stale

theorem indicatorInvert_nil (m : Fin 4) : indicatorInvert [] m = false := by
  have words : ∀ m : Fin 4, (powerOnWord (0x44 + 8 * m.val)).getLsbD 1 = false := by decide
  rw [indicatorInvert, PowerOn.shadowWord_nil (by omega), words]

theorem powerOn_driven (base : Byte) (prio : Initiator) : Driven (State.powerOn base prio) := fun m => by
  have none_stale : ∀ src : SourceId, (State.powerOn base prio).cadence[src].state ≠ .stale := fun src => by
    simp [State.powerOn, Cadence.zeroed]
  have level : ¬ indicatorLevel (State.powerOn base prio) m = true := fun high =>
    not_lineHolds_of_none_stale none_stale m ((indicatorLevel_iff.1 high).2 (indicatorInvert_nil m))
  rw [powerOn_low, eq_false_of_ne_true level]

theorem releaseReset_driven (base : Byte) (prio : Initiator) (s : State) : Driven (releaseReset base prio s) :=
  Same.driven ⟨rfl, rfl, fun _ => rfl, rfl⟩ (powerOn_driven base prio)

theorem release_stepped (base : Byte) (prio : Initiator) (s : State) :
    LinesStepped s (if s.ponrst then serve (releaseReset base prio s) else s) := by
  split
  · have served := serve_tracks (releaseReset base prio s)
    have driven := served.driven (releaseReset_driven base prio s)
    exact ⟨fun _ => (indicatorsFollow_iff_of_released served.ponrst).2 driven,
      fun _ _ => served.flags (PowerOn.mem_allItems .indicators)⟩
  · exact (Same.refl s).stepped

theorem exec_stepped (i : Instr) (s : State) : ∃ t, exec i s = .next t ∧ LinesStepped s t := by
  cases i with
  | wrstPulse => exact ⟨_, rfl, inService_stepped_of_tracks (wallReset_tracks _ s)⟩
  | responseRelay r => exact ⟨_, rfl, inService_stepped_of_tracks (storePortResponse_kept r s).toTracks⟩
  | storeResponse linkTag st => exact ⟨_, rfl, inService_stepped_of_tracks (ownResponse_kept linkTag st s).toTracks⟩
  | storeOpportunity => exact ⟨_, rfl, inService_stepped (opportunity_same s) (.refl _)⟩
  | storeTimeout tag =>
    exact ⟨_, rfl, inService_stepped_of_tracks (ite_keeps (expireTag_kept tag s).toTracks (.refl s))⟩
  | syncLimitExpiry p =>
    exact ⟨_, rfl, inService_stepped_of_tracks (ite_keeps (becomeUnsynced_kept p 1 s).toTracks (.refl s))⟩
  | switchLimitExpiry =>
    exact ⟨_, rfl, inService_stepped_of_tracks (ite_keeps (expireSwitchLimit_kept s).toTracks (.refl s))⟩
  | cadenceTick => exact ⟨_, rfl, inService_stepped_of_tracks (tick_tracks s)⟩
  | staleLimitExpiry src => exact ⟨_, rfl, inService_stepped_of_tracks (ite_keeps (tick_tracks s) (.refl s))⟩
  | fillEntryStart => exact ⟨_, rfl, inService_stepped_of_tracks (startDue_kept s).toTracks⟩
  | fillEntryComplete => exact ⟨_, rfl, inService_stepped_of_tracks (completeDue_kept s).toTracks⟩
  | ponrstAssert => exact ⟨_, rfl, assertReset_stepped s⟩
  | ponrstRelease base prio => exact ⟨_, rfl, release_stepped base prio s⟩
  | _ => exact ⟨_, rfl, arrive_stepped _ s⟩

theorem step_stepped (s : State) : ∃ t, step s = .next t ∧ LinesStepped s t := by
  have idle : Same s (idlePasses s) := by
    unfold idlePasses
    exact ite_keeps (.refl s) ⟨rfl, rfl, fun _ => rfl, rfl⟩
  unfold step
  split
  · next c rest _ =>
    have taken : Same s { s with pending := rest } := ⟨rfl, rfl, fun _ => rfl, rfl⟩
    obtain ⟨t, answer, stepped⟩ := exec_stepped c { s with pending := rest }
    exact ⟨t, answer, .after_same taken stepped⟩
  · split
    · exact exec_stepped _ s
    · exact ⟨_, rfl, idle.stepped⟩

/-- Settles O57: after a power-on reset no line's condition holds, and every command and every idle moment keeps or
evaluates the lines. -/
theorem indicatorsFollowConditions : Obligations.IndicatorsFollowConditions := by
  refine ⟨fun base prio => ⟨?reset, powerOn_low base prio⟩, fun s t hstep => ?step⟩
  case reset => exact (indicatorsFollow_iff_of_released rfl).2 (powerOn_driven base prio)
  case step =>
    obtain ⟨u, answer, stepped⟩ := step_stepped s
    obtain rfl : u = t := Host.Outcome.next.inj (answer.symm.trans hstep)
    exact ⟨stepped.follow, stepped.changed⟩

end Sys2Proof.Indicators

/-! PROOFS of O22: the claim requests (R156). A request word that is not refused has just the effect of its request, which
sets the window's ownership entry or leaves it; a refused one leaves the state but for the FAULT and ACCESS_REFUSED. -/

namespace Sys2Proof.ClaimRequests

open Sys2Proof Sys2Proof.Machine

/-! ## The port after a control write -/

/-- A transaction that joins the pass-through path, or waits for room, makes no initiator ready. -/
theorem settled_enterPass {s : State} (settled : Settled s) (t : Txn) : Settled (enterPass t s) := by
  unfold enterPass
  split
  · exact settled
  · rw [Settled, readyInitiators, List.filter_eq_nil_iff] at settled ⊢
    refine fun i hi ready => settled i hi ?_
    simp only [takingBlocked, List.any_append, Bool.and_eq_true, Bool.not_eq_true', Bool.or_eq_false_iff] at ready ⊢
    obtain ⟨waits, held, earlier, -⟩ := ready
    exact ⟨waits, held, earlier⟩

/-- A control write of one word that is refused is answered FAULT and reported, and does nothing else (R8, R153). -/
theorem takeControl_refused {s : State} {f : Sender} {off reason : Nat} {v : Word} (inRegion : off < Config.controlBytes)
    (refused : wordRefusal s f.initiator ⟨0, off, v⟩ = some reason) :
    takeControl (controlTxn s f off (bytesOf [v])) s
      = answer (controlTxn s f off (bytesOf [v])) .fault (postEvent (evAccessRefused f.initiator reason off) s) := by
  have words : wordsAt off [v] = [⟨0, off, v⟩] := rfl
  have writer : (controlTxn s f off (bytesOf [v])).initiator = f.initiator := rfl
  have rejected : refusedWords s f.initiator [⟨0, off, v⟩] = [⟨0, off, v⟩] := by simp [refusedWords, refused]
  have noneAccepted : acceptedWords s f.initiator [⟨0, off, v⟩] = [] := by simp [acceptedWords, refused]
  have reported : reportRefused f.initiator [⟨0, off, v⟩] s = postEvent (evAccessRefused f.initiator reason off) s := by
    simp only [reportRefused, refused, Option.getD_some]
  rw [takeControl, controlOffset_controlTxn s f off _ inRegion, coveredWords_controlTxn, words, takeWords, writer,
    rejected, noneAccepted, reported]
  rfl

/-! ## The request word -/

theorem field_wordNat {code : Nat} (byte : code < 256) : field (wordNat code) 0 8 = code := by
  simp only [field, wordNat, BitVec.extractLsb'_toNat, BitVec.toNat_ofNat, Nat.shiftRight_zero]
  omega

theorem requestOffset_inRegion (w : WindowId) : requestOffset w < Config.controlBytes := by
  simp only [requestOffset, Config.controlBytes]
  omega

theorem requestWindow_requestOffset (w : WindowId) : requestWindow (requestOffset w) = some w :=
  requestWindow_iff.2 rfl

/-- A console's request word is refused for its request's own reason alone: the part does not post it, it is open in RUN,
and it lies in no staging record (R153). -/
theorem wordRefusal_request {s : State} {i : Initiator} (console : isConsole s i = true) (w : WindowId) (v : Word) :
    wordRefusal s i ⟨0, requestOffset w, v⟩ = requestRefusal s i w (field v 0 8) := by
  have notPosted : isPartPosted (requestOffset w) = false := by
    rw [← Bool.not_eq_true, isPartPosted_iff, requestOffset]
    omega
  have openInRun : isSetupOnly (requestOffset w) = false := by
    rw [← Bool.not_eq_true, isSetupOnly_iff, requestOffset]
    omega
  have notStaging : stagingWindow (requestOffset w) = none := by
    refine Option.eq_none_iff_forall_not_mem.2 fun u staged => ?_
    have bounds := stagingWindow_iff.1 staged
    rw [requestOffset] at bounds
    omega
  simp [wordRefusal, console, notPosted, openInRun, notStaging, requestWindow_requestOffset]

/-- The effect of an accepted request word is its request's (R152). -/
theorem wordEffect_request (i : Initiator) (before : Shadow) (w : WindowId) (v : Word) (s : State) :
    wordEffect i before ⟨0, requestOffset w, v⟩ s = requestEffect i w (field v 0 8) s := by
  have beyond : 0x3000 ≤ requestOffset w := Nat.le_add_right _ _
  have noSource : sourceWord (requestOffset w) = none := dif_neg (by omega)
  rw [wordEffect, if_neg (by dsimp only; omega), if_neg (by dsimp only; omega), if_neg (by dsimp only; omega),
    if_neg (by dsimp only; omega)]
  simp only [noSource, requestWindow_requestOffset]

/-! ## The effect of a request -/

section Effect

variable {s : State} {i o : Initiator} {w : WindowId} {pr : Bool}

theorem setOwner_self {e : Owner} (same : s.owners[w] = e) : setOwner w e s = s := by
  subst same
  simp [setOwner, flagIf, flaggedIf, put]

theorem requestEffect_claim_free (free : s.owners[w] = .free) :
    requestEffect i w 1 s = setOwner w (.owned i (isPriority s i)) s :=
  if_pos free

theorem requestEffect_claim_own (own : s.owners[w] = .owned i pr) :
    requestEffect i w 1 s = setOwner w (.owned i pr) s := by
  rw [setOwner_self own]
  exact if_neg (by simp [own])

theorem requestEffect_release : requestEffect i w 2 s = setOwner w .free s := rfl

theorem requestEffect_seize_free (free : s.owners[w] = .free) :
    requestEffect i w 3 s = setOwner w (.owned i true) s := by
  simp only [requestEffect, free]

theorem requestEffect_seize_own (own : s.owners[w] = .owned i pr) :
    requestEffect i w 3 s = setOwner w (.owned i pr) s := by
  rw [setOwner_self own]
  simp only [requestEffect, own, if_true]

theorem requestEffect_seize_other (owned : s.owners[w] = .owned o pr) (other : o ≠ i) :
    requestEffect i w 3 s = postEvent (evOwnerSeized w o i) (setOwner w (.owned i true) s) := by
  simp only [requestEffect, owned, if_neg other]

/-- No request touches the ingest port's lines, the holds or the waits for the path. -/
theorem readyInitiators_requestEffect (i : Initiator) (w : WindowId) (code : Nat) (s : State) :
    readyInitiators (requestEffect i w code s) = readyInitiators s := by
  have setting : ∀ e, readyInitiators (setOwner w e s) = readyInitiators s := fun _ => readyInitiators_congr rfl rfl rfl
  unfold requestEffect
  split
  · split
    · exact setting _
    · rfl
  · exact setting _
  · split
    · exact setting _
    · split
      · rfl
      · exact (readyInitiators_congr rfl rfl rfl).trans (setting (.owned i true))
  · rfl

end Effect

/-! ## A request that arrives -/

section Arrival

variable {s : State} {f : Sender} {w : WindowId} {code : Nat}

/-- A request word of a console is taken when it arrives, as a control write, and then the port takes what it can. -/
theorem exec_request (writes : ConsoleWrites s f) : exec (.controlWrite (requestTxn s f w code)) s
    = .next (serve (takeControl (requestTxn s f w code) s)) := by
  have aligned : requestOffset w % 4 = 0 := by rw [requestOffset]; omega
  have inBlock : requestOffset w % 256 + 4 * [wordNat code].length ≤ 256 := by rw [List.length_singleton]; omega
  have taken := take_controlTxn s f (requestOffset w) [wordNat code] (isConsole_ne s _ writes.console) aligned Nat.one_pos
    inBlock (requestOffset_inRegion w)
  exact congrArg Host.Outcome.next ((arrive_taken writes.taken).trans (congrArg serve taken))

/-- An accepted request: the shadow takes the word, the request has its effect `u`, and the write is passed. -/
theorem exec_request_accepted {u : State} (writes : ConsoleWrites s f) (byte : code < 256)
    (accepted : requestRefusal s f.initiator w code = none)
    (effect : requestEffect f.initiator w code (written s (requestOffset w) [wordNat code]) = u) :
    exec (.controlWrite (requestTxn s f w code)) s = .next (enterPass (requestTxn s f w code) u) := by
  subst effect
  have wordAccepted : ∀ x ∈ wordsAt (requestOffset w) [wordNat code], wordRefusal s f.initiator x = none := by
    intro x hx
    obtain rfl : x = ⟨0, requestOffset w, wordNat code⟩ := List.mem_singleton.1 hx
    rw [wordRefusal_request writes.console, field_wordNat byte, accepted]
  have effects : effectsPhase f.initiator s.shadow (wordsAt (requestOffset w) [wordNat code])
      (written s (requestOffset w) [wordNat code])
      = requestEffect f.initiator w code (written s (requestOffset w) [wordNat code]) := by
    rw [← field_wordNat byte, ← wordEffect_request f.initiator s.shadow, field_wordNat byte]
    rfl
  have settled : Settled (requestEffect f.initiator w code (written s (requestOffset w) [wordNat code])) :=
    (readyInitiators_requestEffect ..).trans writes.settled
  have taken := takeControl_accepted s f (requestOffset w) [wordNat code] (requestOffset_inRegion w) wordAccepted
  rw [exec_request writes, requestTxn, taken]
  exact congrArg Host.Outcome.next ((congrArg (fun u => serve (enterPass _ u)) effects).trans
    (serve_of_settled (settled_enterPass settled _)))

/-- A refused request: FAULT to the writer and ACCESS_REFUSED to the Poster. -/
theorem exec_request_refused {reason : Nat} (writes : ConsoleWrites s f) (byte : code < 256)
    (refused : requestRefusal s f.initiator w code = some reason) :
    exec (.controlWrite (requestTxn s f w code)) s = .next (answer (requestTxn s f w code) .fault
      (postEvent (evAccessRefused f.initiator reason (requestOffset w)) s)) := by
  have wordRefused : wordRefusal s f.initiator ⟨0, requestOffset w, wordNat code⟩ = some reason := by
    rw [wordRefusal_request writes.console, field_wordNat byte, refused]
  rw [exec_request writes, requestTxn, takeControl_refused (requestOffset_inRegion w) wordRefused]
  exact congrArg Host.Outcome.next (serve_same writes.settled rfl rfl rfl)

end Arrival

/-- Settles O22: by the window's owner, what `requestRefusal` answers and, where that is nothing, the entry that
`requestEffect` sets. -/
theorem claimRequestsDecided : Obligations.ClaimRequestsDecided := by
  rintro s f w granted refused writes rfl rfl
  refine ⟨?none, ?bad, ?free, ?own, ?other, ?notPriority, fun priority => ⟨?seizeFree, ?seizeOwn, ?seizeOther⟩⟩
  case none => exact exec_request_accepted writes (by decide) rfl rfl
  case bad =>
    intro code unnamed byte
    exact exec_request_refused writes byte (requestRefusal_iff.2 (.inr (.inr (.inr ⟨unnamed, rfl⟩))))
  case free =>
    intro free
    exact ⟨exec_request_accepted writes (by decide) (if_neg (by simp [ownedByOther, free]))
        (requestEffect_claim_free free),
      exec_request_refused writes (by decide) (if_pos (.inl free))⟩
  case own =>
    intro pr own
    have mine : ¬ ownedByOther s f.initiator w = true := by simp [ownedByOther, own]
    exact ⟨exec_request_accepted writes (by decide) (if_neg mine) (requestEffect_claim_own own),
      exec_request_accepted writes (by decide) (if_neg (by simp [own, mine])) requestEffect_release⟩
  case other =>
    intro o pr owned other
    have others : ownedByOther s f.initiator w = true := ownedByOther_iff.2 ⟨o, pr, owned, other⟩
    exact ⟨exec_request_refused writes (by decide) (if_pos others),
      exec_request_refused writes (by decide) (if_pos (.inr others))⟩
  case notPriority =>
    intro ordinary
    exact exec_request_refused writes (by decide) (if_neg (ne_true_of_eq_false ordinary))
  case seizeFree =>
    exact fun free => exec_request_accepted writes (by decide) (if_pos priority) (requestEffect_seize_free free)
  case seizeOwn =>
    exact fun pr own => exec_request_accepted writes (by decide) (if_pos priority) (requestEffect_seize_own own)
  case seizeOther =>
    exact fun o pr owned other =>
      exec_request_accepted writes (by decide) (if_pos priority) (requestEffect_seize_other owned other)

end Sys2Proof.ClaimRequests

/-! PROOFS of O56: the IRQ pin (R167). Nearly every operation leaves the pin alone, and with it the level that R167 gives
it: it neither moves P nor writes the shadow nor changes PONRST. Each operation that can change the level drives the pin
to it: a move of P (R166), a wall reset by the Poster's part of it (R170), and a control write by the effect of the word
it changed (R152). -/

namespace Sys2Proof.IrqPin

open Sys2Proof Sys2Proof.Machine

/-! ## The pin at its level -/

theorem irqLevel_iff {s : State} : irqLevel s = true ↔
    s.ponrst = false ∧ interruptEnabled s.shadow = true ∧ s.poster.producer ≠ consumerIndex s.shadow := by
  simp [irqLevel, and_assoc]

theorem irqFollows_iff {s : State} : IrqFollows s ↔ s.irq = irqLevel s := by
  rw [IrqFollows, ← irqLevel_iff]
  exact Bool.eq_iff_iff.symm

theorem irqFollows_of_low {s : State} (pin : s.irq = false) (level : irqLevel s = false) : IrqFollows s :=
  irqFollows_iff.2 (pin.trans level.symm)

theorem irqFollows_updateIrq (s : State) : IrqFollows (updateIrq s) := irqFollows_iff.2 rfl

theorem irqFollows_advanceProducer (s : State) : IrqFollows (advanceProducer s) := irqFollows_updateIrq _

theorem irqFollows_consumerWritten (s : State) : IrqFollows (consumerWritten s) := irqFollows_updateIrq _

theorem irqFollows_assertReset (s : State) : IrqFollows (assertReset s) := irqFollows_of_low rfl rfl

/-- The unwritten shadow has the interrupt enable clear (R22). -/
theorem interruptEnabled_nil : interruptEnabled [] = false := by
  rw [interruptEnabled, PowerOn.shadowWord_nil (by decide)]
  decide

theorem irqLevel_of_shadow_nil {s : State} (unwritten : s.shadow = []) : irqLevel s = false := by
  simp [irqLevel, unwritten, interruptEnabled_nil]

theorem irqFollows_powerOn (base : Byte) (prio : Initiator) : IrqFollows (State.powerOn base prio) :=
  irqFollows_of_low rfl (irqLevel_of_shadow_nil rfl)

theorem irqFollows_releaseReset (base : Byte) (prio : Initiator) (s : State) : IrqFollows (releaseReset base prio s) :=
  irqFollows_of_low rfl (irqLevel_of_shadow_nil rfl)

/-! ## What an operation does to the pin -/

/-- The pin and its level are the same. -/
structure Quiet (s t : State) : Prop where
  pin : t.irq = s.irq
  level : irqLevel t = irqLevel s

/-- A pin that stood at its level does so again. -/
def Settles (s t : State) : Prop := IrqFollows s → IrqFollows t

theorem Quiet.refl (s : State) : Quiet s s := ⟨rfl, rfl⟩

theorem Quiet.trans {s t u : State} (h : Quiet s t) (k : Quiet t u) : Quiet s u :=
  ⟨k.pin.trans h.pin, k.level.trans h.level⟩

theorem Settles.refl (s : State) : Settles s s := id

theorem Settles.trans {s t u : State} (h : Settles s t) (k : Settles t u) : Settles s u := k ∘ h

theorem Quiet.settles {s t : State} (h : Quiet s t) : Settles s t := fun follows =>
  irqFollows_iff.2 (h.pin.trans ((irqFollows_iff.1 follows).trans h.level.symm))

theorem settles_of_follows {s t : State} (follows : IrqFollows t) : Settles s t := fun _ => follows

theorem quiet_foldl {α : Type} {f : State → α → State} (hf : ∀ s x, Quiet s (f s x)) (l : List α) (s : State) :
    Quiet s (l.foldl f s) :=
  foldl_keeps Quiet.refl Quiet.trans f hf l s

theorem settles_foldl {α : Type} {f : State → α → State} (hf : ∀ s x, Settles s (f s x)) (l : List α) (s : State) :
    Settles s (l.foldl f s) :=
  foldl_keeps Settles.refl Settles.trans f hf l s

theorem choices_quiet (n : Nat) (s : State) : Quiet s { s with choices := n } := ⟨rfl, rfl⟩

theorem inEitherOrder_quiet {f g : State → State} (hf : ∀ s, Quiet s (f s)) (hg : ∀ s, Quiet s (g s)) (s : State) :
    Quiet s (inEitherOrder f g s) :=
  Indicators.inEitherOrder_keeps (R := Quiet) .trans choices_quiet hf hg s

/-! ## Events -/

/-- Handing over an event does not move P (R165, R166). -/
theorem handedOver_producer (m : Shadow) (now : Word) (e : Event) (p : Poster) :
    (handedOver m now e p).producer = p.producer := by
  unfold handedOver
  split
  · split <;> rfl
  · rfl

theorem postEvent_quiet (e : Event) (s : State) : Quiet s (postEvent e s) :=
  ⟨rfl, by simp only [irqLevel, postEvent, handedOver_producer]⟩

theorem flag_quiet (i : PostItem) (s : State) : Quiet s (flag i s) := ⟨rfl, rfl⟩

theorem flagAll_quiet (items : List PostItem) (s : State) : Quiet s (flagAll items s) :=
  quiet_foldl (fun s i => flag_quiet i s) items s

/-! ## The Fill Engine -/

theorem setChannel_quiet (c : ChannelId) (ch : Channel) (s : State) : Quiet s (setChannel c ch s) := ⟨rfl, rfl⟩

theorem moveChannel_quiet (c : ChannelId) (st : ChannelState) (s : State) : Quiet s (moveChannel c st s) :=
  setChannel_quiet c _ s

theorem entryJoined_quiet (c : ChannelId) (s : State) : Quiet s (entryJoined c s) := by
  unfold entryJoined
  exact ite_keeps (ite_keeps (moveChannel_quiet _ _ s) (moveChannel_quiet _ _ s)) (.refl s)

theorem entryEnded_quiet (c : ChannelId) (s : State) : Quiet s (entryEnded c s) := by
  unfold entryEnded
  exact ite_keeps ((moveChannel_quiet _ _ s).trans (moveChannel_quiet _ _ _))
    (ite_keeps (moveChannel_quiet _ _ s) (.refl s))

theorem emptiedByDiscards_quiet (c : ChannelId) (s : State) : Quiet s (emptiedByDiscards c s) := by
  unfold emptiedByDiscards
  exact ite_keeps ((moveChannel_quiet _ _ s).trans (moveChannel_quiet _ _ _)) (moveChannel_quiet _ _ s)

theorem setCount_quiet (w : WindowId) (n : Nat) (s : State) : Quiet s (setCount w n s) := ⟨rfl, rfl⟩

theorem lowerCause_quiet (e : ResolveEntry) (s : State) : Quiet s (lowerCause e s) := by
  unfold lowerCause
  split
  · exact .refl s
  · exact setCount_quiet _ _ s

theorem lowerCauses_quiet (es : List ResolveEntry) (s : State) : Quiet s (lowerCauses es s) :=
  quiet_foldl (fun s e => lowerCause_quiet e s) es s

theorem exposure_quiet (l : List ResolveEntry) (s : State) : Quiet s { s with exposure := l } := ⟨rfl, rfl⟩

theorem marking_quiet (l : List BorderEntry) (s : State) : Quiet s { s with marking := l } := ⟨rfl, rfl⟩

theorem dropHead_quiet (c : ChannelId) (s : State) : Quiet s (dropHead c s) := by
  cases c with
  | zero =>
    unfold dropHead
    dsimp only
    split
    · exact .refl s
    · exact (exposure_quiet _ s).trans (lowerCause_quiet _ _)
  | one => exact marking_quiet _ s

theorem endCurrent_quiet (c : ChannelId) (o : LastOutcome) (s : State) : Quiet s (endCurrent c o s) :=
  ((dropHead_quiet c s).trans (setChannel_quiet c _ _)).trans (entryEnded_quiet c _)

theorem joinExposure_quiet (es : List ResolveEntry) (s : State) : Quiet s (joinExposure es s) := by
  unfold joinExposure
  split
  · exact .refl s
  · refine ((exposure_quiet _ s).trans (quiet_foldl (fun s e => ?raised) _ _)).trans (entryJoined_quiet _ _)
    split
    · exact .refl s
    · exact setCount_quiet _ _ s

theorem joinMarking_quiet (es : List BorderEntry) (s : State) : Quiet s (joinMarking es s) := by
  unfold joinMarking
  split
  · exact .refl s
  · exact (marking_quiet _ s).trans (entryJoined_quiet _ _)

theorem wholePanelFallback_quiet (p : PanelId) (epoch : Half) (formed : Nat) (s : State) :
    Quiet s (wholePanelFallback p epoch formed s) := by
  unfold wholePanelFallback
  have removed := fun left es => (exposure_quiet left s).trans (lowerCauses_quiet es _)
  exact ite_keeps (((removed _ _).trans (joinExposure_quiet _ _)).trans (postEvent_quiet _ _))
    ((removed _ _).trans (postEvent_quiet _ _))

theorem fillAtSwitch_quiet (p : PanelId) (l : Layout) (s : State) : Quiet s (fillAtSwitch p l s) := by
  unfold fillAtSwitch
  exact ite_keeps (joinExposure_quiet _ s) (wholePanelFallback_quiet _ _ _ s)

theorem markStale_quiet (src : SourceId) (s : State) : Quiet s (markStale src s) := by
  unfold markStale
  have joined := joinMarking_quiet ((borderEntries s src).take (Config.markingCapacity - s.marking.length)) s
  exact ite_keeps (joined.trans (postEvent_quiet _ _)) joined

theorem setRowsDone_quiet (c : ChannelId) (n : Nat) (s : State) : Quiet s (setRowsDone c n s) := by
  unfold setRowsDone
  cases c <;> dsimp only <;> split
  · exact .refl s
  · exact exposure_quiet _ s
  · exact .refl s
  · exact marking_quiet _ s

theorem beginRow_quiet (c : ChannelId) (n : Nat) (s : State) : Quiet s (beginRow c n s) :=
  (setRowsDone_quiet c _ s).trans (setChannel_quiet c _ _)

theorem discardExposure_quiet (l : List ResolveEntry) (s : State) : Quiet s (discardExposure l s) := by
  induction l generalizing s with
  | nil => exact exposure_quiet _ s
  | cons e rest ih =>
    unfold discardExposure
    exact ite_keeps (exposure_quiet _ s) (((exposure_quiet rest s).trans (lowerCause_quiet _ _)).trans (ih _))

theorem discardHeads_quiet (c : ChannelId) (s : State) : Quiet s (discardHeads c s) := by
  cases c with
  | zero => exact discardExposure_quiet _ s
  | one =>
    unfold discardHeads
    dsimp only
    split <;> exact marking_quiet _ s

theorem startEntry_quiet (c : ChannelId) (s : State) : Quiet s (startEntry c s) := by
  unfold startEntry
  have discarded := discardHeads_quiet c s
  exact ite_keeps (discarded.trans (emptiedByDiscards_quiet c _))
    (((discarded.trans (setChannel_quiet c _ _)).trans (setRowsDone_quiet c 0 _)).trans (beginRow_quiet c 0 _))

theorem startDue_quiet (s : State) : Quiet s (startDue s) := by
  unfold startDue
  split
  · exact .refl s
  · exact startEntry_quiet _ s

theorem completeDue_quiet (s : State) : Quiet s (completeDue s) := by
  unfold completeDue
  split
  · exact .refl s
  · exact endCurrent_quiet _ _ s

theorem answered_quiet (c : ChannelId) (s : State) : Quiet s (answered c s) := setChannel_quiet c _ s

theorem channelFault_quiet (c : ChannelId) (o : LastOutcome) (s : State) : Quiet s (channelFault c o s) := by
  unfold channelFault
  exact ite_keeps ((answered_quiet c s).trans (endCurrent_quiet c o _)) (answered_quiet c s)

theorem clearFills_quiet (s : State) : Quiet s (clearFills s) := by
  have emptied : Quiet s { s with exposure := [], marking := [] } := ⟨rfl, rfl⟩
  exact (emptied.trans (lowerCauses_quiet s.exposure _)).trans ⟨rfl, rfl⟩

/-! ## The Expansion Queue and the pass-through path -/

theorem answer_quiet (t : Txn) (st : Status) (s : State) : Quiet s (answer t st s) := ⟨rfl, rfl⟩

theorem holds_quiet (l : List Held) (s : State) : Quiet s { s with holds := l } := ⟨rfl, rfl⟩

theorem setQueue_quiet (q : List Record) (s : State) : Quiet s (setQueue q s) := ⟨rfl, rfl⟩

theorem enterPass_quiet (t : Txn) (s : State) : Quiet s (enterPass t s) := by
  unfold enterPass
  exact ite_keeps ⟨rfl, rfl⟩ ⟨rfl, rfl⟩

theorem expandFrom_quiet (fuel : Nat) (run : Run) (place : Position) (s : State) :
    Quiet s (expandFrom fuel run place s).1 := by
  induction fuel generalizing place s with
  | zero => exact .refl s
  | succ fuel ih =>
    unfold expandFrom
    split
    · exact .refl s
    · split
      · exact (setQueue_quiet _ s).trans (ih _ _)
      · exact .refl s

theorem expandStretch_quiet {run : Run} {place : Position} {s s' : State} {ending : Stretch}
    (h : expandStretch run place s = (s', ending)) : Quiet s s' :=
  congrArg (fun q => Quiet s q.1) h ▸ expandFrom_quiet _ run place s

theorem finishAperture_quiet (t : Txn) (src : SourceId) (s : State) : Quiet s (finishAperture t src s) := by
  unfold finishAperture
  split
  · exact answer_quiet _ _ s
  · exact enterPass_quiet _ s

theorem walkTurns_quiet (l : List Held) (s : State) : Quiet s (walkTurns l s).1 := by
  induction l generalizing s with
  | nil => exact .refl s
  | cons h rest ih =>
    unfold walkTurns
    split
    · exact (finishAperture_quiet _ _ s).trans (ih _)
    · split
      · exact (setQueue_quiet _ s).trans (ih _)
      · exact ih s

theorem walkContinue_quiet (l : List (Held × Bool)) (s : State) : Quiet s (walkContinue l s).1 := by
  induction l generalizing s with
  | nil => exact .refl s
  | cons turn rest ih =>
    obtain ⟨h, joined⟩ := turn
    cases joined with
    | false => exact ih s
    | true =>
      unfold walkContinue
      split
      · next stretch => exact ((expandStretch_quiet stretch).trans (finishAperture_quiet _ _ _)).trans (ih _)
      · next stretch => exact (expandStretch_quiet stretch).trans (ih _)

theorem walk_quiet (s : State) : Quiet s (walk s) :=
  ((walkTurns_quiet s.holds s).trans (walkContinue_quiet _ _)).trans (holds_quiet _ _)

theorem purge_quiet (p : PanelId) (epoch : Half) (s : State) : Quiet s (purge p epoch s) :=
  (ite_keeps (R := Quiet) (.refl s) (setQueue_quiet _ s)).trans (walk_quiet _)

theorem liveOverrun_quiet (by_ : Initiator) (run : Run) (r : Record) (s : State) :
    Quiet s (liveOverrun by_ run r s) := by
  have flagged : Quiet s { s with overrun := put s.overrun run.source true } := ⟨rfl, rfl⟩
  unfold liveOverrun
  exact ite_keeps (.refl s) (flagged.trans (postEvent_quiet _ _))

theorem expandNew_quiet (t : Txn) (run : Run) (s : State) : Quiet s (expandNew t run s) := by
  unfold expandNew
  split
  · next stretch => exact (expandStretch_quiet stretch).trans (finishAperture_quiet _ _ _)
  · next stretch =>
    split
    · exact ((expandStretch_quiet stretch).trans (liveOverrun_quiet _ _ _ _)).trans (finishAperture_quiet _ _ _)
    · exact (expandStretch_quiet stretch).trans (holds_quiet _ _)

/-! ## Failover and cadence -/

theorem setGate_quiet (w : WindowId) (g : Gate) (s : State) : Quiet s (setGate w g s) := ⟨rfl, rfl⟩

theorem setCadence_quiet (src : SourceId) (c : Cadence) (s : State) : Quiet s (setCadence src c s) := ⟨rfl, rfl⟩

theorem evaluateIndicators_quiet (s : State) : Quiet s (evaluateIndicators s) := ⟨rfl, rfl⟩

theorem armGates_quiet (ws : List WindowId) (s : State) : Quiet s (armGates ws s) :=
  quiet_foldl (fun s w => setGate_quiet w .armed s) ws s

theorem openGates_quiet (src : SourceId) (s : State) : Quiet s (openGates src s) :=
  quiet_foldl (fun s w => ite_keeps (setGate_quiet w .opened s) (.refl s)) _ s

theorem putActive_quiet (w : WindowId) (o : Option LayoutRecord) (s : State) : Quiet s (putActive w o s) := by
  cases o with
  | none => exact .refl s
  | some r => exact ⟨rfl, rfl⟩

theorem putNext_quiet (w : WindowId) (o : Option LayoutRecord) (s : State) : Quiet s (putNext w o s) := by
  cases o with
  | none => exact .refl s
  | some r =>
    show Quiet s (setNextRecord w r s)
    unfold setNextRecord
    split
    · exact .refl s
    · exact ⟨rfl, rfl⟩

theorem reportedSources_quiet (inActive inNext : Option (Nat × Nat)) (s : State) :
    Quiet s (reportedSources inActive inNext s).2 := by
  unfold reportedSources
  split
  · split
    · exact .refl s
    · exact choices_quiet _ s
  all_goals exact .refl s

theorem reportMove_quiet (w : WindowId) (m : Move) (inActive inNext : Option (Nat × Nat)) (s : State) :
    Quiet s (reportMove w m inActive inNext s) := by
  unfold reportMove
  exact ite_keeps (.refl s) ((reportedSources_quiet inActive inNext s).trans (postEvent_quiet _ _))

theorem reportMoves_quiet {report : Move → State → State} (hreport : ∀ m s, Quiet s (report m s))
    (inActive inNext : Option Move) (s : State) : Quiet s (reportMoves report inActive inNext s) := by
  unfold reportMoves
  split
  · exact ite_keeps (hreport _ s) (inEitherOrder_quiet (hreport _) (hreport _) s)
  · exact hreport _ s
  · exact hreport _ s
  · exact .refl s

theorem evaluateWindow_quiet (only : Option SourceId) (inActive : Bool) (w : WindowId) (s : State) :
    Quiet s (evaluateWindow only inActive w s) := by
  have replaced := fun ra rn => (putActive_quiet w ra s).trans (putNext_quiet w rn _)
  unfold evaluateWindow
  exact (ite_keeps (R := Quiet) ((replaced _ _).trans (setGate_quiet w .armed _)) (replaced _ _)).trans
    (reportMoves_quiet (fun m s => reportMove_quiet w m _ _ s) _ _ _)

theorem evaluateFailover_quiet (only : Option SourceId) (inActive : Bool) (s : State) :
    Quiet s (evaluateFailover only inActive s) :=
  quiet_foldl (fun s w => evaluateWindow_quiet only inActive w s) _ s

theorem releaseFailover_quiet (by_ : Initiator) (w : WindowId) (s : State) : Quiet s (releaseFailover by_ w s) := by
  have replaced := fun ra rn =>
    ((putActive_quiet w ra s).trans (putNext_quiet w rn _)).trans (setGate_quiet w .armed _)
  unfold releaseFailover
  exact ite_keeps (.refl s) (((replaced _ _).trans (reportedSources_quiet _ _ _)).trans (postEvent_quiet _ _))

theorem cadenceMoved_quiet (src : SourceId) (s : State) : Quiet s (cadenceMoved src s) :=
  (evaluateFailover_quiet _ _ s).trans (evaluateIndicators_quiet _)

theorem awaitAll_quiet (s : State) : Quiet s (awaitAll s) :=
  ((quiet_foldl (fun s src => setCadence_quiet src _ s) _ s).trans
    (quiet_foldl (fun s src => evaluateFailover_quiet (some src) true s) _ _)).trans (evaluateIndicators_quiet _)

theorem staleEffects_quiet (src : SourceId) (left : CadenceState) (s : State) : Quiet s (staleEffects src left s) :=
  ((ite_keeps (R := Quiet) (.refl s) (postEvent_quiet _ s)).trans
    (inEitherOrder_quiet (markStale_quiet src) (evaluateFailover_quiet (some src) true) _)).trans
      (evaluateIndicators_quiet _)

theorem tickSources_quiet (s : State) : Quiet s (tickSources s) := by
  have risen : ∀ cadence, Quiet s { s with cadence := cadence } := fun _ => ⟨rfl, rfl⟩
  exact ((risen _).trans (quiet_foldl (fun s src => setCadence_quiet src _ s) _ _)).trans
    (quiet_foldl (fun s src => staleEffects_quiet src _ s) _ _)

theorem tick_quiet (s : State) : Quiet s (tick s) := by
  have later : ∀ time, Quiet s { s with wallTime := time } := fun _ => ⟨rfl, rfl⟩
  unfold tick
  exact ite_keeps ((later _).trans (tickSources_quiet _)) (later _)

theorem cadenceFrame_quiet (src : SourceId) (s : State) : Quiet s (cadenceFrame src s) := by
  have recorded := fun c => setCadence_quiet src c s
  unfold cadenceFrame
  exact ite_keeps (recorded _)
    ((ite_keeps ((recorded _).trans (postEvent_quiet _ _)) (recorded _)).trans (cadenceMoved_quiet src _))

theorem frameStart_quiet (src : SourceId) (s : State) : Quiet s (frameStart src s) := by
  have cleared : Quiet s { s with overrun := put s.overrun src false } := ⟨rfl, rfl⟩
  exact cleared.trans (inEitherOrder_quiet (cadenceFrame_quiet src) (openGates_quiet src) _)

theorem takeAperture_quiet (t : Txn) (src : SourceId) (a : Aperture) (s : State) :
    Quiet s (takeAperture t src a s) :=
  (ite_keeps (R := Quiet) (frameStart_quiet src s) (.refl s)).trans (expandNew_quiet _ _ _)

/-! ## Panels and the commit -/

theorem setSync_quiet (p : PanelId) (r : SyncRecord) (s : State) : Quiet s (setSync p r s) := ⟨rfl, rfl⟩

theorem setCommit_quiet (c : Commit) (s : State) : Quiet s (setCommit c s) := ⟨rfl, rfl⟩

theorem commit_quiet (c : Commit) (s : State) : Quiet s { s with commit := c } := ⟨rfl, rfl⟩

theorem setPanelLayout_quiet (p : PanelId) (c : Copy) (epoch : Half) (s : State) :
    Quiet s (setPanelLayout p c epoch s) := ⟨rfl, rfl⟩

theorem completeCommit_quiet (end_ : CommitState) (outcome : CommandOutcome) (s : State) :
    Quiet s (completeCommit end_ outcome s) := by
  unfold completeCommit
  split
  · exact .refl s
  · next l _ =>
    have layouts : Quiet s { s with active := l, next := none } := ⟨rfl, rfl⟩
    have panels := fun items => (layouts.trans (flagAll_quiet items _)).trans
      (quiet_foldl (fun s p => setPanelLayout_quiet p .active l.epoch s) (List.finRange 32) _)
    exact (((panels _).trans (setCommit_quiet _ _)).trans (postEvent_quiet _ _)).trans (commit_quiet _ _)

theorem movePanel_quiet (p : PanelId) (l : Layout) (s : State) : Quiet s (movePanel p l s) :=
  (((setPanelLayout_quiet p .next l.epoch s).trans (purge_quiet p l.epoch _)).trans (fillAtSwitch_quiet p l _)).trans
    (setCommit_quiet _ _)

theorem completeIfLast_quiet (end_ : CommitState) (outcome : CommandOutcome) (s : State) :
    Quiet s (completeIfLast end_ outcome s) :=
  ite_keeps (completeCommit_quiet end_ outcome s) (.refl s)

theorem switchPanel_quiet (end_ : CommitState) (outcome : CommandOutcome) (p : PanelId) (s : State) :
    Quiet s (switchPanel end_ outcome p s) := by
  unfold switchPanel
  split
  · exact .refl s
  · exact ite_keeps ((movePanel_quiet p _ s).trans (completeIfLast_quiet end_ outcome _)) (.refl s)

theorem switchOnTime_quiet (p : PanelId) (s : State) : Quiet s (switchOnTime p s) := switchPanel_quiet _ _ p s

theorem expireSwitchLimit_quiet (s : State) : Quiet s (expireSwitchLimit s) :=
  quiet_foldl (fun s p => ite_keeps
    (((commit_quiet _ s).trans (postEvent_quiet _ _)).trans (switchOnTime_quiet p _)) (.refl s)) _ s

theorem forceCommit_quiet (s : State) : Quiet s (forceCommit s) :=
  quiet_foldl (fun s p => switchPanel_quiet .forced .forced p s) _ s

theorem acceptInRun_quiet (number : Half) (s : State) : Quiet s (acceptInRun number s) := by
  have snapshot : ∀ epoch l, Quiet s { s with epochCounter := epoch, next := some l } := fun _ _ => ⟨rfl, rfl⟩
  have begun : Quiet s (beginCommit number s) :=
    ((snapshot _ _).trans (armGates_quiet _ _)).trans (setCommit_quiet _ _)
  exact (begun.trans (evaluateFailover_quiet none false _)).trans
    (quiet_foldl (fun s p => ite_keeps (switchOnTime_quiet p s) (.refl s)) _ _)

theorem commitInSetup_quiet (by_ : Initiator) (number : Half) (s : State) :
    Quiet s (commitInSetup by_ number s) := by
  have replaced : ∀ epoch l, Quiet s { s with epochCounter := epoch, active := l } := fun _ _ => ⟨rfl, rfl⟩
  have gates := fun epoch l items ws =>
    ((replaced epoch l).trans (flagAll_quiet items _)).trans (armGates_quiet ws _)
  have panels := fun epoch l items ws => (gates epoch l items ws).trans
    (quiet_foldl (fun s p => setPanelLayout_quiet p .active l.epoch s) (List.finRange 32) _)
  exact (((panels _ _ _ _).trans (setCommit_quiet _ _)).trans (evaluateFailover_quiet none true _)).trans
    (postEvent_quiet _ _)

theorem commandCommit_quiet (by_ : Initiator) (number : Half) (s : State) :
    Quiet s (commandCommit by_ number s).1 := by
  unfold commandCommit
  split
  · exact .refl s
  · split
    · exact (setCommit_quiet _ s).trans (postEvent_quiet _ _)
    · split <;> dsimp only
      · exact acceptInRun_quiet _ s
      · exact commitInSetup_quiet _ _ s

theorem snoop_quiet (p : PanelId) (t : Txn) (s : State) : Quiet s (snoop p t s) := by
  unfold snoop
  exact ite_keeps ((setSync_quiet _ _ s).trans (switchOnTime_quiet p _)) (setSync_quiet _ _ s)

theorem becomeUnsynced_quiet (p : PanelId) (cause : Nat) (s : State) : Quiet s (becomeUnsynced p cause s) := by
  unfold becomeUnsynced
  exact ite_keeps (.refl s) (((setSync_quiet _ _ s).trans (postEvent_quiet _ _)).trans (switchOnTime_quiet p _))

theorem latchSync_quiet (old new : Geometry) (p : PanelId) (s : State) : Quiet s (latchSync old new p s) := by
  unfold latchSync
  split
  · exact ite_keeps (becomeUnsynced_quiet _ _ s) (.refl s)
  · exact .refl s
  · exact (setSync_quiet _ _ s).trans (flag_quiet _ _)

theorem latchGeometry_quiet (s : State) : Quiet s (latchGeometry s) := by
  have latched : ∀ g l, Quiet s { s with geometry := g, holds := l } := fun _ _ => ⟨rfl, rfl⟩
  exact ((latched _ _).trans (quiet_foldl (fun s p => latchSync_quiet _ _ p s) _ _)).trans (clearFills_quiet _)

/-! ## Sources and ownership -/

theorem setOwner_quiet (w : WindowId) (o : Owner) (s : State) : Quiet s (setOwner w o s) := ⟨rfl, rfl⟩

theorem enableWordWritten_quiet (by_ : Initiator) (src : SourceId) (s : State) :
    Quiet s (enableWordWritten by_ src s) := by
  have changed : ∀ a c overrun, Quiet s (setCadence src c (setAperture src a { s with overrun := overrun })) :=
    fun _ _ _ => ⟨rfl, rfl⟩
  unfold enableWordWritten
  split
  · unfold requestEnable
    split
    · exact postEvent_quiet _ s
    · exact ((changed _ _ s.overrun).trans (armGates_quiet _ _)).trans (cadenceMoved_quiet src _)
  · exact (changed _ _ _).trans (cadenceMoved_quiet src _)
  · exact .refl s

theorem sourceEffect_quiet (by_ : Initiator) (before : Shadow) (src : SourceId) (inRecord : Nat) (s : State) :
    Quiet s (sourceEffect by_ before src inRecord s) := by
  unfold sourceEffect
  split
  · exact enableWordWritten_quiet by_ src s
  · unfold bucketThresholdWritten
    exact ite_keeps (setCadence_quiet src _ s) (.refl s)
  · exact .refl s

theorem requestEffect_quiet (by_ : Initiator) (w : WindowId) (code : Nat) (s : State) :
    Quiet s (requestEffect by_ w code s) := by
  unfold requestEffect
  split
  · exact ite_keeps (setOwner_quiet _ _ s) (.refl s)
  · exact setOwner_quiet _ _ s
  · split
    · exact setOwner_quiet _ _ s
    · exact ite_keeps (.refl s) ((setOwner_quiet _ _ s).trans (postEvent_quiet _ _))
  · exact .refl s

/-! ## Grants of the store port -/

theorem fillIssued_quiet (c : ChannelId) (s : State) : Quiet s (fillIssued c s) := by
  unfold fillIssued
  exact ite_keeps ((setChannel_quiet _ _ s).trans (beginRow_quiet _ _ _)) (setChannel_quiet _ _ s)

theorem issueOwn_quiet (t : Tag) (own : OwnWrite) (txn : Txn) (s : State) : Quiet s (issueOwn t own txn s) := ⟨rfl, rfl⟩

theorem grantExpansion_quiet (tag : Tag) (s : State) : Quiet s (grantExpansion tag s) := by
  unfold grantExpansion
  split
  · exact .refl s
  · exact ((setQueue_quiet _ s).trans (issueOwn_quiet _ _ _ _)).trans (walk_quiet _)

theorem grantFill_quiet (tag : Tag) (s : State) : Quiet s (grantFill tag s) := by
  unfold grantFill
  split
  · exact .refl s
  · exact (issueOwn_quiet _ _ _ s).trans (fillIssued_quiet _ _)

/-- The Poster's issue of a write does not move P: only the end of the write does (R166). -/
theorem grantPost_quiet (tag : Tag) (s : State) : Quiet s (grantPost tag s) := by
  unfold grantPost
  split
  · exact .refl s
  · unfold grantEvent
    split <;> exact ⟨rfl, rfl⟩
  · unfold grantItem
    split <;> exact ⟨rfl, rfl⟩

theorem withFreeTag_quiet {f : Tag → State → State} (hf : ∀ tag s, Quiet s (f tag s)) (s : State) :
    Quiet s (withFreeTag f s) := by
  unfold withFreeTag
  split
  · exact .refl s
  · exact hf _ s

theorem grant_quiet (r : Requester) (s : State) : Quiet s (grant r s) := by
  cases r with
  | pass =>
    show Quiet s (grantPass s)
    unfold grantPass
    split <;> exact ⟨rfl, rfl⟩
  | expansion => exact withFreeTag_quiet grantExpansion_quiet s
  | fill => exact withFreeTag_quiet grantFill_quiet s
  | post => exact withFreeTag_quiet grantPost_quiet s

theorem opportunity_quiet (s : State) : Quiet s (opportunity s) := by
  have chosen : ∀ r, Quiet s { s with lastGranted := r } := fun _ => ⟨rfl, rfl⟩
  unfold opportunity
  split
  · exact .refl s
  · exact (chosen _).trans (grant_quiet _ _)

/-! ## Answers and timeouts of own writes -/

theorem setTag_quiet (t : Tag) (e : TagState) (s : State) : Quiet s (setTag t e s) := ⟨rfl, rfl⟩

theorem quarantineTag_quiet (t : Tag) (s : State) : Quiet s (quarantineTag t s) := by
  have quarantined : Quiet s (flag .quarantined (setTag t .quarantined s)) := ⟨rfl, rfl⟩
  have spent : ∀ s : State, Quiet s { s with exhaustion := .spent } := fun _ => ⟨rfl, rfl⟩
  unfold quarantineTag reportExhausted
  exact ite_keeps (quarantined.trans ((spent _).trans (postEvent_quiet _ _))) quarantined

/-- The end of an event record's write moves P, and the pin follows; that of a posted item's moves nothing (R166). -/
theorem postEnded_settles (off : Nat) (s : State) : Settles s (postEnded off s) := by
  unfold postEnded
  split
  · exact .refl s
  · exact settles_of_follows (irqFollows_advanceProducer _)

theorem originFault_settles (own : OwnWrite) (o : LastOutcome) (s : State) : Settles s (originFault own o s) := by
  cases own with
  | expansion => exact .refl s
  | fill => exact (channelFault_quiet _ _ s).settles
  | post => exact postEnded_settles _ s

theorem originDone_settles (own : OwnWrite) (s : State) : Settles s (originDone own s) := by
  cases own with
  | expansion => exact .refl s
  | fill => exact (answered_quiet _ s).settles
  | post => exact postEnded_settles _ s

theorem ownResponse_settles (linkTag : Byte) (st : Status) (s : State) : Settles s (ownResponse linkTag st s) := by
  unfold ownResponse
  split
  · dsimp only
    split
    · exact .refl s
    · exact Quiet.settles ⟨rfl, rfl⟩
    · have freed := fun t => setTag_quiet t .free s
      split
      · exact (freed _).settles.trans (originDone_settles _ _)
      · exact (ite_keeps ((freed _).trans (postEvent_quiet _ _)) (freed _)).settles.trans (originFault_settles _ _ _)
  · exact .refl s

theorem storePortResponse_settles (r : Response) (s : State) : Settles s (storePortResponse r s) := by
  unfold storePortResponse
  exact ite_keeps (ownResponse_settles _ _ s) (Quiet.settles ⟨rfl, rfl⟩)

theorem expireTag_settles (t : Tag) (s : State) : Settles s (expireTag t s) := by
  unfold expireTag
  split
  · have expired := fun own => (quarantineTag_quiet t s).settles.trans (originFault_settles own .timeout _)
    exact ite_keeps ((expired _).trans (postEvent_quiet _ _).settles) (expired _)
  · exact .refl s

/-! ## Commands -/

/-- Whatever a wall reset does before, the Poster's part of it drives the pin (R170). -/
theorem irqFollows_wallReset (report : Event) (s : State) : IrqFollows (wallReset report s) :=
  (postEvent_quiet report _).settles (irqFollows_advanceProducer _)

theorem setMode_quiet (m : Mode) (s : State) : Quiet s (setMode m s) := ⟨rfl, rfl⟩

theorem commandRun_quiet (by_ : Initiator) (sequence : Half) (s : State) : Quiet s (commandRun by_ sequence s).1 := by
  unfold commandRun
  split
  · exact .refl s
  · split
    · exact .refl s
    · have entered := (latchGeometry_quiet s).trans (setMode_quiet .run _)
      exact (entered.trans (postEvent_quiet _ _)).trans (awaitAll_quiet _)

theorem commandSetup_quiet (by_ : Initiator) (sequence : Half) (s : State) :
    Quiet s (commandSetup by_ sequence s).1 := by
  unfold commandSetup
  split
  · exact .refl s
  · exact (((forceCommit_quiet s).trans (setMode_quiet .setup _)).trans (postEvent_quiet _ _)).trans (awaitAll_quiet _)

theorem commandReleaseFailover_quiet (by_ : Initiator) (argument : Nat) (s : State) :
    Quiet s (commandReleaseFailover by_ argument s).1 := by
  unfold commandReleaseFailover
  split
  · dsimp only
    split
    · exact .refl s
    · exact releaseFailover_quiet _ _ s
  · exact .refl s

theorem commandAction_settles (by_ : Initiator) (code : Nat) (sequence argument : Half) (s : State) :
    Settles s (commandAction by_ code sequence argument s).1 := by
  unfold commandAction
  split
  · exact (commandCommit_quiet _ _ s).settles
  · exact (commandRun_quiet _ _ s).settles
  · exact (commandSetup_quiet _ _ s).settles
  · exact settles_of_follows (irqFollows_wallReset _ s)
  · exact (clearFills_quiet s).settles
  · exact (commandReleaseFailover_quiet _ _ s).settles
  · exact .refl s

theorem runCommand_settles (by_ : Initiator) (s : State) : Settles s (runCommand by_ s) := by
  have recorded : ∀ r s, Quiet s (setResult r s) := fun _ _ => ⟨rfl, rfl⟩
  exact (commandAction_settles _ _ _ _ s).trans (recorded _ _).settles

/-! ## Control writes -/

/-- The words whose effect drives the pin: the interrupt enable's and the consumer index's (R166, R167). -/
def DrivesIrq (w : ControlWord) : Prop := w.offset = 0x34 ∨ w.offset = 0x400

theorem irqFollows_wordEffect {w : ControlWord} (drives : DrivesIrq w) (by_ : Initiator) (before : Shadow)
    (s : State) : IrqFollows (wordEffect by_ before w s) := by
  obtain enable | consumer := drives
  · rw [wordEffect, if_pos enable]
    exact irqFollows_updateIrq s
  · rw [wordEffect, if_neg (by omega), if_neg (by omega), if_neg (by omega), if_pos consumer]
    exact irqFollows_consumerWritten s

theorem wordEffect_settles (by_ : Initiator) (before : Shadow) (w : ControlWord) (s : State) :
    Settles s (wordEffect by_ before w s) := by
  unfold wordEffect
  split
  · exact settles_of_follows (irqFollows_updateIrq s)
  split
  · exact (evaluateIndicators_quiet s).settles
  split
  · exact runCommand_settles by_ s
  split
  · exact settles_of_follows (irqFollows_consumerWritten s)
  split
  · exact (sourceEffect_quiet _ _ _ _ s).settles
  · split
    · exact (requestEffect_quiet _ _ _ s).settles
    · exact .refl s

theorem shadowRead_mergeWord_other {m : Shadow} {w : ControlWord} {off : Nat} (aligned : w.offset % 4 = 0)
    (other : off / 4 * 4 ≠ w.offset) : shadowRead (mergeWord m w) off = shadowRead m off := by
  refine shadowRead_writeBytes_other m w.offset off (wordBytes w.merged) ?_
  rw [wordBytes_length]
  omega

/-- No other word holds a byte that the level is read from. -/
theorem level_fields_mergeWord {w : ControlWord} (aligned : w.offset % 4 = 0) (other : ¬ DrivesIrq w) (m : Shadow) :
    interruptEnabled (mergeWord m w) = interruptEnabled m ∧ consumerIndex (mergeWord m w) = consumerIndex m := by
  obtain ⟨enable, consumer⟩ := not_or.1 other
  have byte : ∀ off, off / 4 * 4 = 0x34 → shadowRead (mergeWord m w) off = shadowRead m off := fun off place =>
    shadowRead_mergeWord_other aligned (by omega)
  refine ⟨?_, shadowRead_mergeWord_other aligned (by omega)⟩
  rw [interruptEnabled, shadowWord, byte _ rfl, byte _ rfl, byte _ rfl, byte _ rfl, interruptEnabled, shadowWord]

theorem level_fields_mergeWords {words : List ControlWord} (aligned : ∀ w ∈ words, w.offset % 4 = 0)
    (others : ∀ w ∈ words, ¬ DrivesIrq w) (m : Shadow) :
    interruptEnabled (words.foldl mergeWord m) = interruptEnabled m
      ∧ consumerIndex (words.foldl mergeWord m) = consumerIndex m := by
  induction words generalizing m with
  | nil => exact ⟨rfl, rfl⟩
  | cons w rest ih =>
    rw [List.forall_mem_cons] at aligned others
    obtain ⟨enable, consumer⟩ := level_fields_mergeWord aligned.1 others.1 m
    obtain ⟨enables, consumers⟩ := ih aligned.2 others.2 (mergeWord m w)
    exact ⟨enables.trans enable, consumers.trans consumer⟩

theorem shadowPhase_quiet {words : List ControlWord} (aligned : ∀ w ∈ words, w.offset % 4 = 0)
    (others : ∀ w ∈ words, ¬ DrivesIrq w) (s : State) : Quiet s (shadowPhase words s) := by
  obtain ⟨enable, consumer⟩ := level_fields_mergeWords aligned others s.shadow
  exact ⟨rfl, by simp only [irqLevel, shadowPhase, enable, consumer]⟩

/-- The shadow phase may change the level, and then a word of the same write drives the pin; no later word undoes it. -/
theorem acceptedWords_settles {words : List ControlWord} (aligned : ∀ w ∈ words, w.offset % 4 = 0) (by_ : Initiator)
    (before : Shadow) (s : State) : Settles s (effectsPhase by_ before words (shadowPhase words s)) := by
  have effects := settles_foldl fun s w => wordEffect_settles by_ before w s
  by_cases driven : ∃ w ∈ words, DrivesIrq w
  · obtain ⟨w, mem, drives⟩ := driven
    obtain ⟨first, later, words_eq⟩ := List.append_of_mem mem
    refine settles_of_follows ?_
    rw [effectsPhase, words_eq, List.foldl_append, List.foldl_cons]
    exact effects later _ (irqFollows_wordEffect drives by_ before _)
  · have others : ∀ w ∈ words, ¬ DrivesIrq w := fun w mem drives => driven ⟨w, mem, drives⟩
    exact (shadowPhase_quiet aligned others s).settles.trans (effects words _)

theorem takeWords_settles {words : List ControlWord} (aligned : ∀ w ∈ words, w.offset % 4 = 0) (t : Txn) (s : State) :
    Settles s (takeWords t words s) := by
  have reported : ∀ refused, Quiet s (reportRefused t.initiator refused s) := fun refused => by
    cases refused with
    | nil => exact .refl s
    | cons => exact postEvent_quiet _ s
  have accepted : ∀ w ∈ acceptedWords s t.initiator words, w.offset % 4 = 0 := fun w mem =>
    aligned w (List.mem_filter.1 mem).1
  have concluded : ∀ r a s, Quiet s (concludeControl t r a s) := fun _ _ s =>
    ite_keeps (answer_quiet _ _ s) (enterPass_quiet _ s)
  exact ((reported _).settles.trans (acceptedWords_settles accepted _ _ _)).trans (concluded _ _ _).settles

theorem takeControl_settles {t : Txn} (wellFormed : malformedReason t = none) (s : State) :
    Settles s (takeControl t s) := by
  have address := Indicators.address_aligned wellFormed
  have start : controlOffset s t % 4 = 0 := by
    simp only [controlOffset, controlBase, Config.strapUnit]
    omega
  exact takeWords_settles (fun w => Indicators.coveredWords_aligned start) t s

/-! ## The ingest port -/

theorem take_settles (t : Txn) (s : State) : Settles s (take t s) := by
  unfold take
  split
  · unfold takeMalformed
    exact (ite_keeps ((postEvent_quiet _ s).trans (answer_quiet _ _ _)) (enterPass_quiet _ s)).settles
  · next wellFormed =>
    split
    · exact takeControl_settles wellFormed s
    · exact (takeAperture_quiet _ _ _ s).settles
    · exact ((snoop_quiet _ _ s).trans (enterPass_quiet _ _)).settles
    · exact (enterPass_quiet _ s).settles

theorem nextReady_quiet {s s' : State} {i : Initiator} (h : nextReady s = some (i, s')) : Quiet s s' := by
  unfold nextReady at h
  split at h
  · cases h
  · cases h
    exact .refl s
  · cases h
    exact choices_quiet _ s

theorem lines_quiet (lines : Vector (List Txn) 16) (s : State) : Quiet s { s with lines := lines } := ⟨rfl, rfl⟩

theorem serveLines_settles (fuel : Nat) (s : State) : Settles s (serveLines fuel s) := by
  induction fuel generalizing s with
  | zero => exact .refl s
  | succ fuel ih =>
    unfold serveLines
    split
    · exact .refl s
    · next ready =>
      have chosen := nextReady_quiet ready
      split
      · exact chosen.settles
      · exact ((chosen.trans (lines_quiet _ _)).settles.trans (take_settles _ _)).trans (ih _)

theorem serve_settles (s : State) : Settles s (serve s) := ite_keeps (.refl s) (serveLines_settles _ s)

/-! ## Steps -/

theorem arrive_settles (t : Txn) (s : State) : Settles s (arrive t s) :=
  ite_keeps ((take_settles t s).trans (serve_settles _)) (lines_quiet _ s).settles

theorem inService_settles {f : State → State} {s : State} (h : Settles s (f s)) : Settles s (inService f s) :=
  ite_keeps (.refl s) (h.trans (serve_settles _))

theorem exec_settles (i : Instr) (s : State) : ∃ t, exec i s = .next t ∧ Settles s t := by
  cases i with
  | wrstPulse => exact ⟨_, rfl, inService_settles (settles_of_follows (irqFollows_wallReset _ s))⟩
  | responseRelay r => exact ⟨_, rfl, inService_settles (storePortResponse_settles r s)⟩
  | storeResponse linkTag st => exact ⟨_, rfl, inService_settles (ownResponse_settles linkTag st s)⟩
  | storeOpportunity => exact ⟨_, rfl, inService_settles (opportunity_quiet s).settles⟩
  | storeTimeout tag => exact ⟨_, rfl, inService_settles (ite_keeps (expireTag_settles tag s) (.refl s))⟩
  | syncLimitExpiry p => exact ⟨_, rfl, inService_settles (ite_keeps (becomeUnsynced_quiet p 1 s).settles (.refl s))⟩
  | switchLimitExpiry => exact ⟨_, rfl, inService_settles (ite_keeps (expireSwitchLimit_quiet s).settles (.refl s))⟩
  | cadenceTick => exact ⟨_, rfl, inService_settles (tick_quiet s).settles⟩
  | staleLimitExpiry src => exact ⟨_, rfl, inService_settles (ite_keeps (tick_quiet s).settles (.refl s))⟩
  | fillEntryStart => exact ⟨_, rfl, inService_settles (startDue_quiet s).settles⟩
  | fillEntryComplete => exact ⟨_, rfl, inService_settles (completeDue_quiet s).settles⟩
  | ponrstAssert => exact ⟨_, rfl, settles_of_follows (irqFollows_assertReset s)⟩
  | ponrstRelease base prio =>
    have released := serve_settles _ (irqFollows_releaseReset base prio s)
    exact ⟨_, rfl, ite_keeps (settles_of_follows released) (.refl s)⟩
  | _ => exact ⟨_, rfl, arrive_settles _ s⟩

theorem step_settles (s : State) : ∃ t, step s = .next t ∧ Settles s t := by
  unfold step
  split
  · next c rest _ =>
    have taken : Quiet s { s with pending := rest } := ⟨rfl, rfl⟩
    obtain ⟨t, answer, settles⟩ := exec_settles c { s with pending := rest }
    exact ⟨t, answer, taken.settles.trans settles⟩
  · split
    · exact exec_settles _ s
    · have later : Quiet s (nextMicro s) := ⟨rfl, rfl⟩
      exact ⟨_, rfl, ite_keeps (.refl s) later.settles⟩

/-- Settles O56: the unwritten shadow has the interrupt enable clear, and every command and every idle moment leaves the
pin and its level alone or drives the pin to it. -/
theorem irqFollowsProducer : Obligations.IrqFollowsProducer := by
  refine ⟨irqFollows_powerOn, fun s t follows hstep => ?_⟩
  obtain ⟨u, answer, settles⟩ := step_settles s
  obtain rfl : u = t := Host.Outcome.next.inj (answer.symm.trans hstep)
  exact settles follows

end Sys2Proof.IrqPin
/-! The walk through every step, made once for all the invariants (O51 to O55, O58, O59). A relation that the operations of
`Respected` keep is kept by every event of the part and by the effects of every transaction; with the port's own operations
(`RespectedByPort`) it is kept by every step. -/

namespace Sys2Proof.Steps

open Sys2Proof Sys2Proof.Machine

/-! ## Changes beside every invariant -/

/-- From `s` to `t` no field changes that an invariant reads, but for the event ring of the Poster. -/
structure RingOnly (s t : State) : Prop where
  ponrst : t.ponrst = s.ponrst
  mode : t.mode = s.mode
  shadow : t.shadow = s.shadow
  geometry : t.geometry = s.geometry
  apertures : t.apertures = s.apertures
  cadence : t.cadence = s.cadence
  active : t.active = s.active
  next : t.next = s.next
  selection : t.selection = s.selection
  panelEpoch : t.panelEpoch = s.panelEpoch
  fillCount : t.fillCount = s.fillCount
  queue : t.queue = s.queue
  holds : t.holds = s.holds
  passFifo : t.passFifo = s.passFifo
  passWait : t.passWait = s.passWait
  commit : t.commit = s.commit
  exposure : t.exposure = s.exposure
  marking : t.marking = s.marking
  channel0 : t.channel0 = s.channel0
  channel1 : t.channel1 = s.channel1
  lines : t.lines = s.lines

/-- From `s` to `t` no field changes that an invariant reads. -/
structure Aside (s t : State) : Prop extends RingOnly s t where
  allocation : t.poster.allocation = s.poster.allocation
  producer : t.poster.producer = s.poster.producer
  events : t.poster.events = s.poster.events
  issued : t.poster.issued = s.poster.issued

theorem RingOnly.trans {s t u : State} (h : RingOnly s t) (k : RingOnly t u) : RingOnly s u where
  ponrst := k.ponrst.trans h.ponrst
  mode := k.mode.trans h.mode
  shadow := k.shadow.trans h.shadow
  geometry := k.geometry.trans h.geometry
  apertures := k.apertures.trans h.apertures
  cadence := k.cadence.trans h.cadence
  active := k.active.trans h.active
  next := k.next.trans h.next
  selection := k.selection.trans h.selection
  panelEpoch := k.panelEpoch.trans h.panelEpoch
  fillCount := k.fillCount.trans h.fillCount
  queue := k.queue.trans h.queue
  holds := k.holds.trans h.holds
  passFifo := k.passFifo.trans h.passFifo
  passWait := k.passWait.trans h.passWait
  commit := k.commit.trans h.commit
  exposure := k.exposure.trans h.exposure
  marking := k.marking.trans h.marking
  channel0 := k.channel0.trans h.channel0
  channel1 := k.channel1.trans h.channel1
  lines := k.lines.trans h.lines

theorem Aside.refl (s : State) : Aside s s := ⟨by constructor <;> rfl, rfl, rfl, rfl, rfl⟩

theorem Aside.trans {s t u : State} (h : Aside s t) (k : Aside t u) : Aside s u where
  toRingOnly := h.toRingOnly.trans k.toRingOnly
  allocation := k.allocation.trans h.allocation
  producer := k.producer.trans h.producer
  events := k.events.trans h.events
  issued := k.issued.trans h.issued

theorem aside_foldl {α : Type} {f : State → α → State} (hf : ∀ s x, Aside s (f s x)) (l : List α) (s : State) :
    Aside s (l.foldl f s) :=
  foldl_keeps Aside.refl Aside.trans f hf l s

theorem flagIf_aside (changed : Bool) (i : PostItem) (s : State) : Aside s (flagIf changed i s) :=
  ⟨by constructor <;> rfl, rfl, rfl, rfl, rfl⟩

theorem flag_aside (i : PostItem) (s : State) : Aside s (flag i s) := flagIf_aside true i s

theorem flagAll_aside (items : List PostItem) (s : State) : Aside s (flagAll items s) :=
  aside_foldl (fun s i => flag_aside i s) items s

theorem choices_aside (n : Nat) (s : State) : Aside s { s with choices := n } :=
  ⟨by constructor <;> rfl, rfl, rfl, rfl, rfl⟩

theorem wallTime_aside (time : Word) (s : State) : Aside s { s with wallTime := time } :=
  ⟨by constructor <;> rfl, rfl, rfl, rfl, rfl⟩

theorem pending_aside (l : List Instr) (s : State) : Aside s { s with pending := l } :=
  ⟨by constructor <;> rfl, rfl, rfl, rfl, rfl⟩

theorem lastGranted_aside (r : Requester) (s : State) : Aside s { s with lastGranted := r } :=
  ⟨by constructor <;> rfl, rfl, rfl, rfl, rfl⟩

theorem overrun_aside (flags : Vector Bool 32) (s : State) : Aside s { s with overrun := flags } :=
  ⟨by constructor <;> rfl, rfl, rfl, rfl, rfl⟩

theorem exhaustion_aside (e : ExhaustionFlag) (s : State) : Aside s { s with exhaustion := e } :=
  ⟨by constructor <;> rfl, rfl, rfl, rfl, rfl⟩

theorem respond_aside (r : Response) (s : State) : Aside s (respond r s) :=
  ⟨by constructor <;> rfl, rfl, rfl, rfl, rfl⟩

theorem answer_aside (t : Txn) (st : Status) (s : State) : Aside s (answer t st s) := respond_aside _ s

theorem setGate_aside (w : WindowId) (g : Gate) (s : State) : Aside s (setGate w g s) :=
  ⟨by constructor <;> rfl, rfl, rfl, rfl, rfl⟩

theorem armGates_aside (ws : List WindowId) (s : State) : Aside s (armGates ws s) :=
  aside_foldl (fun s w => setGate_aside w .armed s) ws s

theorem openGates_aside (src : SourceId) (s : State) : Aside s (openGates src s) :=
  aside_foldl (fun s w => ite_keeps (setGate_aside w .opened s) (.refl s)) _ s

theorem setSync_aside (p : PanelId) (r : SyncRecord) (s : State) : Aside s (setSync p r s) :=
  ⟨by constructor <;> rfl, rfl, rfl, rfl, rfl⟩

theorem setOwner_aside (w : WindowId) (o : Owner) (s : State) : Aside s (setOwner w o s) :=
  ⟨by constructor <;> rfl, rfl, rfl, rfl, rfl⟩

theorem resetOwners_aside (s : State) : Aside s (resetOwners s) :=
  aside_foldl (fun s w => ite_keeps (.refl s) (setOwner_aside w .free s)) _ s

theorem setResult_aside (r : CommandResult) (s : State) : Aside s (setResult r s) :=
  ⟨by constructor <;> rfl, rfl, rfl, rfl, rfl⟩

theorem updateIrq_aside (s : State) : Aside s (updateIrq s) :=
  ⟨by constructor <;> rfl, rfl, rfl, rfl, rfl⟩

theorem evaluateIndicators_aside (s : State) : Aside s (evaluateIndicators s) :=
  ⟨by constructor <;> rfl, rfl, rfl, rfl, rfl⟩

theorem setTag_aside (t : Tag) (e : TagState) (s : State) : Aside s (setTag t e s) :=
  ⟨by constructor <;> rfl, rfl, rfl, rfl, rfl⟩

theorem releaseQuarantined_aside (t : Tag) (s : State) : Aside s (releaseQuarantined t s) :=
  ⟨by constructor <;> rfl, rfl, rfl, rfl, rfl⟩

theorem issueOwn_aside (t : Tag) (own : OwnWrite) (txn : Txn) (s : State) : Aside s (issueOwn t own txn s) :=
  ⟨by constructor <;> rfl, rfl, rfl, rfl, rfl⟩

theorem grantItem_aside (tag : Tag) (s : State) : Aside s (grantItem tag s) := by
  unfold grantItem
  split
  · exact .refl s
  · exact ⟨by constructor <;> rfl, rfl, rfl, rfl, rfl⟩

theorem reportedSources_aside (inActive inNext : Option (Nat × Nat)) (s : State) :
    Aside s (reportedSources inActive inNext s).2 := by
  unfold reportedSources
  split
  · split
    · exact .refl s
    · exact choices_aside _ s
  all_goals exact .refl s

theorem postEvent_ringOnly (e : Event) (s : State) : RingOnly s (postEvent e s) := by constructor <;> rfl

theorem postEnded_ringOnly (off : Nat) (s : State) : RingOnly s (postEnded off s) := by
  unfold postEnded
  split <;> constructor <;> rfl

theorem consumerWritten_ringOnly (s : State) : RingOnly s (consumerWritten s) := by constructor <;> rfl

theorem grantEvent_ringOnly (tag : Tag) (s : State) : RingOnly s (grantEvent tag s) := by
  unfold grantEvent
  split <;> constructor <;> rfl

theorem resetPoster_ringOnly (s : State) : RingOnly s (resetPoster s) := by constructor <;> rfl

/-! ## When the part makes an operation -/

theorem frameRecord_disabled_iff (m : Shadow) (src : SourceId) (c : Cadence) :
    (frameRecord m src c).state = .disabled ↔ c.state = .disabled := by
  unfold frameRecord
  split
  · exact Iff.rfl
  · next awaiting => simp [awaiting]
  · next learning => simp [learning]
  · next live =>
    have kept : ∀ i, (baselineRule m src c i).state = c.state := fun i => by
      unfold baselineRule
      dsimp only
      split
      · rfl
      split
      · split <;> rfl
      split
      · rfl
      split <;> rfl
    rw [kept]
  · next stale => simp [stale]
  · next recovering =>
    have never : ∀ i, (recoveryRule m src c i).state ≠ .disabled := fun i => by
      unfold recoveryRule
      dsimp only
      split
      · split <;> simp [recovering]
      · simp [recovering]
    simp [recovering, never]

theorem enabled_of_limitReached {m : Shadow} {src : SourceId} {c : Cadence} (h : limitReached m src c = true) :
    c.state ≠ .disabled := fun disabled => by
  simp [limitReached, staleLimit, disabled] at h

theorem canStart_of_startingChannel {s : State} {c : ChannelId} (h : startingChannel s = some c) :
    canStart c s = true := by
  unfold startingChannel at h
  split at h
  · next starts => exact Option.some.inj h ▸ starts
  · split at h
    · next starts => exact Option.some.inj h ▸ starts
    · cases h

theorem isPainted_of_paintedChannel {s : State} {c : ChannelId} (h : paintedChannel s = some c) :
    isPainted c s = true := by
  unfold paintedChannel at h
  split at h
  · next painted => exact Option.some.inj h ▸ painted
  · split at h
    · next painted => exact Option.some.inj h ▸ painted
    · cases h

theorem current_of_paintedChannel {s : State} {c : ChannelId} (h : paintedChannel s = some c) :
    (getChannel c s).current = true := by
  have painted := isPainted_of_paintedChannel h
  simp only [isPainted, Bool.and_eq_true] at painted
  exact painted.1.1.1.2

theorem nextReady_aside {s s' : State} {i : Initiator} (h : nextReady s = some (i, s')) : Aside s s' := by
  unfold nextReady at h
  split at h
  · cases h
  · cases h
    exact .refl s
  · cases h
    exact choices_aside _ s

/-! ## The operations an invariant has to be tested against -/

/-- A wall reset's part of the blocks whose clearing belongs together: commit, queue, layouts and fills (R20, R66, R100,
R117, R133). -/
def resetBlocks (s : State) : State :=
  resetFills (resetLayouts (resetQueue (inEitherOrder abandonCommit quarantineAll s)))

/-- A COMMIT in SETUP up to the evaluation of failover (R65, R109). -/
def replaceActive (number : Half) (s : State) : State :=
  let l := stagedLayout s.shadow (s.epochCounter + 1)
  let images := ((List.finRange 64).filter fun w =>
    s.active.records[w].window.state != l.records[w].window.state
      || s.active.records[w].effective != l.records[w].effective).map PostItem.image
  let s1 := armGates (changedList (changedSet s l))
    (flagAll images { s with epochCounter := s.epochCounter + 1, active := l })
  let s2 := (List.finRange 32).foldl (fun s p => setPanelLayout p .active l.epoch s) s1
  setCommit { s2.commit with state := .done, number := number, remaining := 0, refusal := none } s2

theorem commitInSetup_eq (by_ : Initiator) (number : Half) (s : State) :
    commitInSetup by_ number s
      = Machine.postEvent (evCommitDone .done number 0 by_) (evaluateFailover none true (replaceActive number s)) := by
  unfold commitInSetup replaceActive
  dsimp only

/-- A relation that every operation of the part's blocks keeps, each in the situation in which the part makes it. -/
structure Respected (R : State → State → Prop) : Prop where
  refl : ∀ s, R s s
  trans : ∀ {s t u}, R s t → R t u → R s u
  aside : ∀ {s t}, Aside s t → R s t
  postEvent : ∀ e s, R s (postEvent e s)
  postEnded : ∀ off s, R s (postEnded off s)
  consumerWritten : ∀ s, R s (consumerWritten s)
  grantEvent : ∀ tag s, R s (grantEvent tag s)
  resetPoster : ∀ s, R s (resetPoster s)
  shadowPhase : ∀ words s, R s (shadowPhase words s)
  /-- Cadence records change, and none becomes or ceases to be DISABLED. -/
  cadence : ∀ (cs : Vector Cadence 32) (s : State),
    (∀ src : SourceId, cs[src].state = .disabled ↔ s.cadence[src].state = .disabled) → R s { s with cadence := cs }
  /-- Every ENABLED source's record becomes AWAITING (R143). -/
  awaiting : ∀ s, R s ((enabledSources s).foldl (fun s src => setCadence src (.zeroed .awaiting) s) s)
  activeRecords : ∀ (rs : Vector LayoutRecord 64) (s : State), R s { s with active := { s.active with records := rs } }
  nextRecords : ∀ (rs : Vector LayoutRecord 64) (l : Layout) (s : State), s.next = some l →
    R s { s with next := some { l with records := rs } }
  enable : ∀ src s, enableRefusal s src = none →
    R s (setCadence src (.zeroed .awaiting) (setAperture src (some (shadowAperture s.shadow src)) s))
  disable : ∀ src s, R s (setCadence src (.zeroed .disabled) (setAperture src none s))
  joinMarking : ∀ es s, es.length ≤ Config.markingCapacity - s.marking.length → R s (joinMarking es s)
  answered : ∀ c s, R s (answered c s)
  endCurrent : ∀ c o s, (getChannel c s).current = true → R s (endCurrent c o s)
  startEntry : ∀ c s, canStart c s = true → R s (startEntry c s)
  fillIssued : ∀ c s, R s (fillIssued c s)
  clearFills : ∀ s, R s (clearFills s)
  switchPanel : ∀ end_ outcome p s, end_ ≠ .inFlight → R s (switchPanel end_ outcome p s)
  late : ∀ n s, R s { s with commit := { s.commit with late := n } }
  refuse : ∀ number r s, ¬ (s.mode = .run ∧ s.commit.state = .inFlight) →
    R s (setCommit { s.commit with state := .refused, number := number, remaining := 0, refusal := some r } s)
  beginCommit : ∀ number s, s.mode = .run → s.commit.state ≠ .inFlight → R s (beginCommit number s)
  replaceActive : ∀ number s, s.mode = .setup → R s (replaceActive number s)
  enterRun : ∀ s, s.mode = .setup → runCheck s = none → R s (setMode .run (latchGeometry s))
  enterSetup : ∀ s, R s (setMode .setup (forceCommit s))
  resetBlocks : ∀ s, R s (resetBlocks s)
  grantPass : ∀ s, R s (grantPass s)
  grantExpansion : ∀ tag s, R s (grantExpansion tag s)

namespace Respected

variable {R : State → State → Prop} (h : Respected R)
include h

theorem foldl {α : Type} {f : State → α → State} (hf : ∀ s x, R s (f s x)) (l : List α) (s : State) :
    R s (l.foldl f s) :=
  foldl_keeps h.refl h.trans f hf l s

theorem inEitherOrder {f g : State → State} (hf : ∀ s, R s (f s)) (hg : ∀ s, R s (g s)) (s : State) :
    R s (inEitherOrder f g s) :=
  Indicators.inEitherOrder_keeps (R := R) h.trans (fun n s => h.aside (choices_aside n s)) hf hg s

/-! ### Cadence and failover -/

theorem setCadence {src : SourceId} {c : Cadence} {s : State}
    (same : c.state = .disabled ↔ s.cadence[src].state = .disabled) : R s (setCadence src c s) := by
  refine h.trans (h.cadence (put s.cadence src c) s fun other => ?_) (h.aside (flagIf_aside _ _ _))
  by_cases here : src = other
  · subst here
    rw [put_self, same]
  · rw [put_of_ne _ _ _ _ here]

theorem putActive (w : WindowId) (o : Option LayoutRecord) (s : State) : R s (putActive w o s) := by
  cases o with
  | none => exact h.refl s
  | some r => exact h.trans (h.activeRecords _ s) (h.aside (flagIf_aside _ _ _))

theorem putNext (w : WindowId) (o : Option LayoutRecord) (s : State) : R s (putNext w o s) := by
  cases o with
  | none => exact h.refl s
  | some r =>
    show R s (setNextRecord w r s)
    unfold setNextRecord
    split
    · exact h.refl s
    · next exists_ => exact h.nextRecords _ _ s exists_

theorem reportMove (w : WindowId) (m : Move) (inActive inNext : Option (Nat × Nat)) (s : State) :
    R s (reportMove w m inActive inNext s) := by
  unfold Machine.reportMove
  exact ite_keeps (h.refl s) (h.trans (h.aside (reportedSources_aside inActive inNext s)) (h.postEvent _ _))

theorem reportMoves {report : Move → State → State} (hreport : ∀ m s, R s (report m s)) (inActive inNext : Option Move)
    (s : State) : R s (reportMoves report inActive inNext s) := by
  unfold Machine.reportMoves
  split
  · exact ite_keeps (hreport _ s) (h.inEitherOrder (hreport _) (hreport _) s)
  · exact hreport _ s
  · exact hreport _ s
  · exact h.refl s

theorem evaluateWindow (only : Option SourceId) (inActive : Bool) (w : WindowId) (s : State) :
    R s (evaluateWindow only inActive w s) := by
  have replaced := fun ra rn => h.trans (h.putActive w ra s) (h.putNext w rn _)
  unfold Machine.evaluateWindow
  exact h.trans (ite_keeps (h.trans (replaced _ _) (h.aside (setGate_aside w .armed _))) (replaced _ _))
    (h.reportMoves (fun m s => h.reportMove w m _ _ s) _ _ _)

theorem evaluateFailover (only : Option SourceId) (inActive : Bool) (s : State) :
    R s (evaluateFailover only inActive s) :=
  h.foldl (fun s w => h.evaluateWindow only inActive w s) _ s

theorem cadenceMoved (src : SourceId) (s : State) : R s (cadenceMoved src s) :=
  h.trans (h.evaluateFailover (some src) true s) (h.aside (evaluateIndicators_aside _))

theorem releaseFailover (by_ : Initiator) (w : WindowId) (s : State) : R s (releaseFailover by_ w s) := by
  have replaced := fun ra rn => h.trans (h.trans (h.putActive w ra s) (h.putNext w rn _))
    (h.aside (setGate_aside w .armed _))
  unfold Machine.releaseFailover
  exact ite_keeps (h.refl s)
    (h.trans (h.trans (replaced _ _) (h.aside (reportedSources_aside _ _ _))) (h.postEvent _ _))

theorem markStale (src : SourceId) (s : State) : R s (markStale src s) := by
  have joined := h.joinMarking ((borderEntries s src).take (Config.markingCapacity - s.marking.length)) s
    (List.length_take_le _ _)
  unfold Machine.markStale
  exact ite_keeps (h.trans joined (h.postEvent _ _)) joined

theorem staleEffects (src : SourceId) (left : CadenceState) (s : State) : R s (staleEffects src left s) :=
  h.trans (h.trans (ite_keeps (h.refl s) (h.postEvent _ s))
    (h.inEitherOrder (h.markStale src) (h.evaluateFailover (some src) true) _)) (h.aside (evaluateIndicators_aside _))

theorem staleRecords (due : List SourceId) (s : State) (enabled : ∀ src ∈ due, s.cadence[src].state ≠ .disabled) :
    R s (due.foldl (fun s src => Machine.setCadence src (staled s.cadence[src]) s) s) := by
  induction due generalizing s with
  | nil => exact h.refl s
  | cons src rest ih =>
    rw [List.forall_mem_cons] at enabled
    refine h.trans (h.setCadence ?_) (ih _ fun other mem => ?_)
    · exact iff_of_false (by simp [staled]) enabled.1
    · rw [setCadence_cadence]
      by_cases here : src = other
      · subst here
        rw [put_self]
        simp [staled]
      · rw [put_of_ne _ _ _ _ here]
        exact enabled.2 other mem

theorem tickSources (s : State) : R s (tickSources s) := by
  have risen : R s { s with cadence := Vector.ofFn fun src : Fin 32 => ticked s.cadence[src] } :=
    h.cadence _ s fun src => by simp [Indicators.ticked_state]
  unfold Machine.tickSources
  refine h.trans (h.trans risen (h.staleRecords _ _ fun src due => ?_)) (h.foldl (fun s src => h.staleEffects src _ s) _ _)
  exact enabled_of_limitReached (List.mem_filter.1 due).2

theorem tick (s : State) : R s (tick s) := by
  have later := h.aside (wallTime_aside (nextTickTime s.wallTime) s)
  unfold Machine.tick
  exact ite_keeps (h.trans later (h.tickSources _)) later

theorem cadenceFrame (src : SourceId) (s : State) : R s (cadenceFrame src s) := by
  have recorded : R s (Machine.setCadence src (frameRecord s.shadow src s.cadence[src]) s) :=
    h.setCadence (frameRecord_disabled_iff _ _ _)
  unfold Machine.cadenceFrame
  exact ite_keeps recorded (h.trans (ite_keeps (h.trans recorded (h.postEvent _ _)) recorded) (h.cadenceMoved src _))

theorem frameStart (src : SourceId) (s : State) : R s (frameStart src s) :=
  h.trans (h.aside (overrun_aside _ s))
    (h.inEitherOrder (h.cadenceFrame src) (fun s => h.aside (openGates_aside src s)) _)

theorem awaitAll (s : State) : R s (awaitAll s) :=
  h.trans (h.awaiting s)
    (h.trans (h.foldl (fun s src => h.evaluateFailover (some src) true s) _ _) (h.aside (evaluateIndicators_aside _)))

/-! ### Panels and the commit -/

theorem switchOnTime (p : PanelId) (s : State) : R s (switchOnTime p s) := h.switchPanel _ _ p s (by decide)

theorem snoop (p : PanelId) (t : Txn) (s : State) : R s (snoop p t s) := by
  have synced := fun r => h.aside (setSync_aside p r s)
  unfold Machine.snoop
  exact ite_keeps (h.trans (synced _) (h.switchOnTime p _)) (synced _)

theorem becomeUnsynced (p : PanelId) (cause : Nat) (s : State) : R s (becomeUnsynced p cause s) := by
  unfold Machine.becomeUnsynced
  exact ite_keeps (h.refl s)
    (h.trans (h.trans (h.aside (setSync_aside p _ s)) (h.postEvent _ _)) (h.switchOnTime p _))

theorem expireSwitchLimit (s : State) : R s (expireSwitchLimit s) :=
  h.foldl (fun s p => ite_keeps
    (h.trans (h.trans (h.late _ s) (h.postEvent _ _)) (h.switchOnTime p _)) (h.refl s)) _ s

theorem commandCommit (by_ : Initiator) (number : Half) (s : State) : R s (commandCommit by_ number s).1 := by
  unfold Machine.commandCommit
  split
  · exact h.refl s
  · next notBusy =>
    split
    · exact h.trans (h.refuse _ _ s notBusy) (h.postEvent _ _)
    · split <;> dsimp only
      · next running =>
        have idle : s.commit.state ≠ .inFlight := fun flying => notBusy ⟨running, flying⟩
        exact h.trans (h.trans (h.beginCommit _ s running idle) (h.evaluateFailover none false _))
          (h.foldl (fun s p => ite_keeps (h.switchOnTime p s) (h.refl s)) _ _)
      · next setup =>
        rw [commitInSetup_eq]
        exact h.trans (h.trans (h.replaceActive _ s setup) (h.evaluateFailover none true _)) (h.postEvent _ _)

theorem commandRun (by_ : Initiator) (sequence : Half) (s : State) : R s (commandRun by_ sequence s).1 := by
  unfold Machine.commandRun
  split
  · exact h.refl s
  · next setup =>
    split
    · exact h.refl s
    · next passes => exact h.trans (h.trans (h.enterRun s setup passes) (h.postEvent _ _)) (h.awaitAll _)

theorem commandSetup (by_ : Initiator) (sequence : Half) (s : State) : R s (commandSetup by_ sequence s).1 := by
  unfold Machine.commandSetup
  split
  · exact h.refl s
  · exact h.trans (h.trans (h.enterSetup s) (h.postEvent _ _)) (h.awaitAll _)

theorem wallReset (report : Event) (s : State) : R s (wallReset report s) := by
  have cleared := h.trans (h.resetBlocks s) (h.aside (resetOwners_aside _))
  exact h.trans (h.trans (h.trans cleared (h.awaitAll _)) (h.resetPoster _)) (h.postEvent report _)

theorem commandReleaseFailover (by_ : Initiator) (argument : Nat) (s : State) :
    R s (commandReleaseFailover by_ argument s).1 := by
  unfold Machine.commandReleaseFailover
  split
  · dsimp only
    split
    · exact h.refl s
    · exact h.releaseFailover _ _ s
  · exact h.refl s

theorem commandAction (by_ : Initiator) (code : Nat) (sequence argument : Half) (s : State) :
    R s (commandAction by_ code sequence argument s).1 := by
  unfold Machine.commandAction
  split
  · exact h.commandCommit _ _ s
  · exact h.commandRun _ _ s
  · exact h.commandSetup _ _ s
  · exact h.wallReset _ s
  · exact h.clearFills s
  · exact h.commandReleaseFailover _ _ s
  · exact h.refl s

theorem runCommand (by_ : Initiator) (s : State) : R s (runCommand by_ s) :=
  h.trans (h.commandAction _ _ _ _ s) (h.aside (setResult_aside _ _))

/-! ### Control writes -/

theorem enableWordWritten (by_ : Initiator) (src : SourceId) (s : State) : R s (enableWordWritten by_ src s) := by
  unfold Machine.enableWordWritten
  split
  · unfold requestEnable
    split
    · exact h.postEvent _ s
    · next accepted =>
      exact h.trans (h.trans (h.enable src s accepted) (h.aside (armGates_aside _ _))) (h.cadenceMoved src _)
  · exact h.trans (h.trans (h.aside (overrun_aside _ s)) (h.disable src _)) (h.cadenceMoved src _)
  · exact h.refl s

theorem sourceEffect (by_ : Initiator) (before : Shadow) (src : SourceId) (inRecord : Nat) (s : State) :
    R s (sourceEffect by_ before src inRecord s) := by
  unfold Machine.sourceEffect
  split
  · exact h.enableWordWritten by_ src s
  · unfold bucketThresholdWritten
    exact ite_keeps (h.setCadence Iff.rfl) (h.refl s)
  · exact h.refl s

theorem requestEffect (by_ : Initiator) (w : WindowId) (code : Nat) (s : State) : R s (requestEffect by_ w code s) := by
  have setting := fun o => h.aside (setOwner_aside w o s)
  unfold Machine.requestEffect
  split
  · exact ite_keeps (setting _) (h.refl s)
  · exact setting _
  · split
    · exact setting _
    · exact ite_keeps (h.refl s) (h.trans (setting _) (h.postEvent _ _))
  · exact h.refl s

theorem wordEffect (by_ : Initiator) (before : Shadow) (w : ControlWord) (s : State) :
    R s (wordEffect by_ before w s) := by
  unfold Machine.wordEffect
  split
  · exact h.aside (updateIrq_aside s)
  split
  · exact h.aside (evaluateIndicators_aside s)
  split
  · exact h.runCommand by_ s
  split
  · exact h.consumerWritten s
  split
  · exact h.sourceEffect _ _ _ _ s
  · split
    · exact h.requestEffect _ _ _ s
    · exact h.refl s

/-- What a control write does before it is passed or answered. -/
theorem controlEffects (by_ : Initiator) (before : Shadow) (refused accepted : List ControlWord) (s : State) :
    R s (effectsPhase by_ before accepted (Machine.shadowPhase accepted (reportRefused by_ refused s))) := by
  have reported : R s (reportRefused by_ refused s) := by
    cases refused with
    | nil => exact h.refl s
    | cons => exact h.postEvent _ s
  exact h.trans (h.trans reported (h.shadowPhase accepted _)) (h.foldl (fun s w => h.wordEffect by_ before w s) _ _)

/-! ### The store port and the timers -/

theorem grantFill (tag : Tag) (s : State) : R s (grantFill tag s) := by
  unfold Machine.grantFill
  split
  · exact h.refl s
  · exact h.trans (h.aside (issueOwn_aside _ _ _ s)) (h.fillIssued _ _)

theorem grantPost (tag : Tag) (s : State) : R s (grantPost tag s) := by
  unfold Machine.grantPost
  split
  · exact h.refl s
  · exact h.grantEvent tag s
  · exact h.aside (grantItem_aside tag s)

theorem withFreeTag {f : Tag → State → State} (hf : ∀ tag s, R s (f tag s)) (s : State) : R s (withFreeTag f s) := by
  unfold Machine.withFreeTag
  split
  · exact h.refl s
  · exact hf _ s

theorem grant (r : Requester) (s : State) : R s (grant r s) := by
  cases r with
  | pass => exact h.grantPass s
  | expansion => exact h.withFreeTag h.grantExpansion s
  | fill => exact h.withFreeTag h.grantFill s
  | post => exact h.withFreeTag h.grantPost s

theorem opportunity (s : State) : R s (opportunity s) := by
  unfold Machine.opportunity
  split
  · exact h.refl s
  · exact h.trans (h.aside (lastGranted_aside _ s)) (h.grant _ _)

theorem channelFault (c : ChannelId) (o : LastOutcome) (s : State) : R s (channelFault c o s) := by
  unfold Machine.channelFault
  dsimp only
  split
  · next current => exact h.trans (h.answered c s) (h.endCurrent c o _ current)
  · exact h.answered c s

theorem originFault (own : OwnWrite) (o : LastOutcome) (s : State) : R s (originFault own o s) := by
  cases own with
  | expansion => exact h.refl s
  | fill => exact h.channelFault _ _ s
  | post => exact h.postEnded _ s

theorem originDone (own : OwnWrite) (s : State) : R s (originDone own s) := by
  cases own with
  | expansion => exact h.refl s
  | fill => exact h.answered _ s
  | post => exact h.postEnded _ s

theorem ownResponse (linkTag : Byte) (st : Status) (s : State) : R s (ownResponse linkTag st s) := by
  unfold Machine.ownResponse
  split
  · dsimp only
    split
    · exact h.refl s
    · exact h.aside (releaseQuarantined_aside _ s)
    · have freed := fun t => h.aside (setTag_aside t .free s)
      split
      · exact h.trans (freed _) (h.originDone _ _)
      · exact h.trans (ite_keeps (h.trans (freed _) (h.postEvent _ _)) (freed _)) (h.originFault _ _ _)
  · exact h.refl s

theorem storePortResponse (r : Response) (s : State) : R s (storePortResponse r s) := by
  unfold Machine.storePortResponse
  exact ite_keeps (h.ownResponse _ _ s) (h.aside (respond_aside r s))

theorem reportExhausted (s : State) : R s (reportExhausted s) := by
  unfold Machine.reportExhausted
  exact ite_keeps (h.trans (h.aside (exhaustion_aside .spent s)) (h.postEvent _ _)) (h.refl s)

theorem expireTag (t : Tag) (s : State) : R s (expireTag t s) := by
  have quarantined : R s (quarantineTag t s) :=
    h.trans (h.aside ((setTag_aside t .quarantined s).trans (flag_aside _ _))) (h.reportExhausted _)
  unfold Machine.expireTag
  split
  · have expired := fun own => h.trans quarantined (h.originFault own .timeout _)
    exact ite_keeps (h.trans (expired _) (h.postEvent _ _)) (expired _)
  · exact h.refl s

theorem startDue (s : State) : R s (startDue s) := by
  unfold Machine.startDue
  split
  · exact h.refl s
  · next c starting => exact h.startEntry c s (canStart_of_startingChannel starting)

theorem completeDue (s : State) : R s (completeDue s) := by
  unfold Machine.completeDue
  split
  · exact h.refl s
  · next c painted => exact h.endCurrent c _ s (current_of_paintedChannel painted)

end Respected

/-! ## The ingest port and the step -/

/-- What a command does: an arrival, an event of the part that is made of the operations of `Respected`, or the reset
pin. -/
inductive ExecAs (s : State) : Host.Outcome State Fault Refusal → Prop where
  | arrival (t : Txn) : ExecAs s (.next (arrive t s))
  | event (f : State → State) : (∀ R, Respected R → R s (f s)) → ExecAs s (.next (inService f s))
  | assertion : ExecAs s (.next (assertReset s))
  | release (base : Byte) (prio : Initiator) :
      ExecAs s (.next (if s.ponrst then serve (releaseReset base prio s) else s))

theorem exec_as (i : Instr) (s : State) : ExecAs s (exec i s) := by
  cases i with
  | wrstPulse => exact .event _ fun _ h => h.wallReset _ s
  | responseRelay r => exact .event _ fun _ h => h.storePortResponse r s
  | storeResponse linkTag st => exact .event _ fun _ h => h.ownResponse linkTag st s
  | storeOpportunity => exact .event _ fun _ h => h.opportunity s
  | storeTimeout tag => exact .event _ fun _ h => ite_keeps (h.expireTag tag s) (h.refl s)
  | syncLimitExpiry p => exact .event _ fun _ h => ite_keeps (h.becomeUnsynced p 1 s) (h.refl s)
  | switchLimitExpiry => exact .event _ fun _ h => ite_keeps (h.expireSwitchLimit s) (h.refl s)
  | cadenceTick => exact .event _ fun _ h => h.tick s
  | staleLimitExpiry src => exact .event _ fun _ h => ite_keeps (h.tick s) (h.refl s)
  | fillEntryStart => exact .event _ fun _ h => h.startDue s
  | fillEntryComplete => exact .event _ fun _ h => h.completeDue s
  | ponrstAssert => exact .assertion
  | ponrstRelease base prio => exact .release base prio
  | _ => exact .arrival _

/-- What a step does: a command's effect on the state without the command, or of itself on the state as it is; or time
passes. -/
theorem step_as (s : State) : (∃ u i, Aside s u ∧ step s = exec i u) ∨ ∃ u, Aside s u ∧ step s = .next u := by
  unfold step
  split
  · next c rest _ => exact .inl ⟨_, c, pending_aside rest s, rfl⟩
  · split
    · next c _ => exact .inl ⟨s, c, .refl s, rfl⟩
    · exact .inr ⟨_, ite_keeps (.refl s) (wallTime_aside _ s), rfl⟩

/-- A property that every command keeps, and that no change beside the invariants touches, is kept by every step. -/
theorem step_keeps {P : State → Prop} (aside : ∀ {s t}, Aside s t → P s → P t)
    (exec : ∀ i s, P s → ∃ t, exec i s = .next t ∧ P t) {s t : State} (hs : P s) (hstep : step s = .next t) : P t := by
  obtain ⟨u, i, change, command⟩ | ⟨u, change, idle⟩ := step_as s
  · obtain ⟨v, answer, kept⟩ := exec i u (aside change hs)
    rw [command, answer] at hstep
    exact Host.Outcome.next.inj hstep ▸ kept
  · exact Host.Outcome.next.inj (idle.symm.trans hstep) ▸ aside change hs

/-- A relation that the operations of the ingest port and of the reset pin keep besides. -/
structure RespectedByPort (R : State → State → Prop) : Prop extends Respected R where
  enterPass : ∀ t s, R s (enterPass t s)
  expandNew : ∀ t run s, R s (expandNew t run s)
  lines : ∀ (lines : Vector (List Txn) 16) s, R s { s with lines := lines }
  assertReset : ∀ s, R s (assertReset s)
  releaseReset : ∀ base prio s, R s (releaseReset base prio s)

namespace RespectedByPort

variable {R : State → State → Prop} (h : RespectedByPort R)
include h

theorem take (t : Txn) (s : State) : R s (take t s) := by
  unfold Machine.take
  split
  · unfold takeMalformed
    exact ite_keeps (h.trans (h.postEvent _ s) (h.aside (answer_aside _ _ _))) (h.enterPass t s)
  · split
    · exact h.trans (h.toRespected.controlEffects _ _ _ _ s)
        (ite_keeps (h.aside (answer_aside _ _ _)) (h.enterPass _ _))
    · exact h.trans (ite_keeps (h.toRespected.frameStart _ s) (h.refl s)) (h.expandNew t _ _)
    · exact h.trans (h.toRespected.snoop _ t s) (h.enterPass t _)
    · exact h.enterPass t s

theorem serveLines (fuel : Nat) (s : State) : R s (serveLines fuel s) := by
  induction fuel generalizing s with
  | zero => exact h.refl s
  | succ fuel ih =>
    unfold Machine.serveLines
    split
    · exact h.refl s
    · next ready =>
      have chosen := h.aside (nextReady_aside ready)
      split
      · exact chosen
      · exact h.trans (h.trans (h.trans chosen (h.lines _ _)) (h.take _ _)) (ih _)

theorem serve (s : State) : R s (serve s) := ite_keeps (h.refl s) (h.serveLines _ s)

theorem arrive (t : Txn) (s : State) : R s (arrive t s) :=
  ite_keeps (h.trans (h.take t s) (h.serve _)) (h.lines _ s)

theorem inService {f : State → State} {s : State} (hf : R s (f s)) : R s (inService f s) :=
  ite_keeps (h.refl s) (h.trans hf (h.serve _))

theorem exec (i : Instr) (s : State) : ∃ t, exec i s = .next t ∧ R s t := by
  generalize answer : Machine.exec i s = outcome
  have as := exec_as i s
  rw [answer] at as
  cases as with
  | arrival t => exact ⟨_, rfl, h.arrive t s⟩
  | event f kept => exact ⟨_, rfl, h.inService (kept R h.toRespected)⟩
  | assertion => exact ⟨_, rfl, h.assertReset s⟩
  | release base prio => exact ⟨_, rfl, ite_keeps (h.trans (h.releaseReset base prio s) (h.serve _)) (h.refl s)⟩

end RespectedByPort

/-- An invariant whose keeping the operations respect is kept by every step. -/
theorem invariant_step {I : State → Prop} (h : RespectedByPort fun s t => I s → I t) {s t : State} (hs : I s)
    (hstep : step s = .next t) : I t :=
  step_keeps (fun change hs => h.aside change hs)
    (fun i s hs => (h.exec i s).imp fun _ answer => ⟨answer.1, answer.2 hs⟩) hs hstep

end Sys2Proof.Steps

/-! The walk for an invariant that says nothing of the commit, the layouts, the panels' use of them, the mode and the
geometry: of the operations of `Respected` only their parts on the other blocks are left to be tested. -/

namespace Sys2Proof.Steps

open Sys2Proof Sys2Proof.Machine

/-- From `s` to `t` only what the commit and the layouts are about may change, and what no invariant reads. -/
structure LayoutOnly (s t : State) : Prop where
  ponrst : t.ponrst = s.ponrst
  shadow : t.shadow = s.shadow
  apertures : t.apertures = s.apertures
  cadence : t.cadence = s.cadence
  fillCount : t.fillCount = s.fillCount
  queue : t.queue = s.queue
  holds : t.holds = s.holds
  passFifo : t.passFifo = s.passFifo
  passWait : t.passWait = s.passWait
  exposure : t.exposure = s.exposure
  marking : t.marking = s.marking
  channel0 : t.channel0 = s.channel0
  channel1 : t.channel1 = s.channel1
  lines : t.lines = s.lines
  allocation : t.poster.allocation = s.poster.allocation
  producer : t.poster.producer = s.poster.producer
  events : t.poster.events = s.poster.events
  issued : t.poster.issued = s.poster.issued

theorem Aside.toLayoutOnly {s t : State} (h : Aside s t) : LayoutOnly s t where
  ponrst := h.ponrst
  shadow := h.shadow
  apertures := h.apertures
  cadence := h.cadence
  fillCount := h.fillCount
  queue := h.queue
  holds := h.holds
  passFifo := h.passFifo
  passWait := h.passWait
  exposure := h.exposure
  marking := h.marking
  channel0 := h.channel0
  channel1 := h.channel1
  lines := h.lines
  allocation := h.allocation
  producer := h.producer
  events := h.events
  issued := h.issued

theorem LayoutOnly.refl (s : State) : LayoutOnly s s := (Aside.refl s).toLayoutOnly

theorem LayoutOnly.trans {s t u : State} (h : LayoutOnly s t) (k : LayoutOnly t u) : LayoutOnly s u where
  ponrst := k.ponrst.trans h.ponrst
  shadow := k.shadow.trans h.shadow
  apertures := k.apertures.trans h.apertures
  cadence := k.cadence.trans h.cadence
  fillCount := k.fillCount.trans h.fillCount
  queue := k.queue.trans h.queue
  holds := k.holds.trans h.holds
  passFifo := k.passFifo.trans h.passFifo
  passWait := k.passWait.trans h.passWait
  exposure := k.exposure.trans h.exposure
  marking := k.marking.trans h.marking
  channel0 := k.channel0.trans h.channel0
  channel1 := k.channel1.trans h.channel1
  lines := k.lines.trans h.lines
  allocation := k.allocation.trans h.allocation
  producer := k.producer.trans h.producer
  events := k.events.trans h.events
  issued := k.issued.trans h.issued

theorem setPanelLayout_layoutOnly (p : PanelId) (c : Copy) (epoch : Half) (s : State) :
    LayoutOnly s (setPanelLayout p c epoch s) := by constructor <;> rfl

theorem setPanelLayouts_layoutOnly (c : Copy) (epoch : Half) (l : List PanelId) (s : State) :
    LayoutOnly s (l.foldl (fun s p => setPanelLayout p c epoch s) s) :=
  foldl_keeps LayoutOnly.refl LayoutOnly.trans _ (fun s p => setPanelLayout_layoutOnly p c epoch s) l s

theorem setCommit_layoutOnly (c : Commit) (s : State) : LayoutOnly s (setCommit c s) := by constructor <;> rfl

theorem commit_layoutOnly (c : Commit) (s : State) : LayoutOnly s { s with commit := c } := by constructor <;> rfl

theorem setMode_layoutOnly (m : Mode) (s : State) : LayoutOnly s (setMode m s) := by constructor <;> rfl

theorem beginCommit_layoutOnly (number : Half) (s : State) : LayoutOnly s (beginCommit number s) := by
  have snapshot : ∀ epoch l, LayoutOnly s { s with epochCounter := epoch, next := some l } := fun _ _ => by
    constructor <;> rfl
  exact ((snapshot _ _).trans (armGates_aside _ _).toLayoutOnly).trans (setCommit_layoutOnly _ _)

theorem replaceActive_layoutOnly (number : Half) (s : State) : LayoutOnly s (replaceActive number s) := by
  have replaced : ∀ epoch l, LayoutOnly s { s with epochCounter := epoch, active := l } := fun _ _ => by
    constructor <;> rfl
  exact ((((replaced _ _).trans (flagAll_aside _ _).toLayoutOnly).trans (armGates_aside _ _).toLayoutOnly).trans
    (setPanelLayouts_layoutOnly .active _ _ _)).trans (setCommit_layoutOnly _ _)

/-- A relation that the operations keep, where it does not read what `LayoutOnly` lets change. -/
structure RespectedByBlocks (R : State → State → Prop) : Prop where
  refl : ∀ s, R s s
  trans : ∀ {s t u}, R s t → R t u → R s u
  layouts : ∀ {s t}, LayoutOnly s t → R s t
  postEvent : ∀ e s, R s (postEvent e s)
  postEnded : ∀ off s, R s (postEnded off s)
  consumerWritten : ∀ s, R s (consumerWritten s)
  grantEvent : ∀ tag s, R s (grantEvent tag s)
  resetPoster : ∀ s, R s (resetPoster s)
  shadowPhase : ∀ words s, R s (shadowPhase words s)
  cadence : ∀ (cs : Vector Cadence 32) (s : State),
    (∀ src : SourceId, cs[src].state = .disabled ↔ s.cadence[src].state = .disabled) → R s { s with cadence := cs }
  awaiting : ∀ s, R s ((enabledSources s).foldl (fun s src => setCadence src (.zeroed .awaiting) s) s)
  enable : ∀ src s, enableRefusal s src = none →
    R s (setCadence src (.zeroed .awaiting) (setAperture src (some (shadowAperture s.shadow src)) s))
  disable : ∀ src s, R s (setCadence src (.zeroed .disabled) (setAperture src none s))
  joinMarking : ∀ es s, es.length ≤ Config.markingCapacity - s.marking.length → R s (joinMarking es s)
  answered : ∀ c s, R s (answered c s)
  endCurrent : ∀ c o s, (getChannel c s).current = true → R s (endCurrent c o s)
  startEntry : ∀ c s, canStart c s = true → R s (startEntry c s)
  fillIssued : ∀ c s, R s (fillIssued c s)
  clearFills : ∀ s, R s (clearFills s)
  purge : ∀ p epoch s, R s (purge p epoch s)
  fillAtSwitch : ∀ p l s, R s (fillAtSwitch p l s)
  /-- The held writes note a latch of the working geometry (R85). -/
  latchHolds : ∀ s, R s { s with holds := s.holds.map fun w => { w with latched := true } }
  resetBlocks : ∀ s, R s (resetBlocks s)
  grantPass : ∀ s, R s (grantPass s)
  grantExpansion : ∀ tag s, R s (grantExpansion tag s)

namespace RespectedByBlocks

variable {R : State → State → Prop} (h : RespectedByBlocks R)
include h

theorem aside {s t : State} (change : Aside s t) : R s t := h.layouts change.toLayoutOnly

theorem foldl {α : Type} {f : State → α → State} (hf : ∀ s x, R s (f s x)) (l : List α) (s : State) :
    R s (l.foldl f s) :=
  foldl_keeps h.refl h.trans f hf l s

theorem completeCommit (end_ : CommitState) (outcome : CommandOutcome) (s : State) :
    R s (completeCommit end_ outcome s) := by
  unfold Machine.completeCommit
  split
  · exact h.refl s
  · next l _ =>
    have layouts : LayoutOnly s { s with active := l, next := none } := by constructor <;> rfl
    have panels := fun items => (layouts.trans (flagAll_aside items _).toLayoutOnly).trans
      (setPanelLayouts_layoutOnly .active l.epoch (List.finRange 32) _)
    exact h.trans (h.trans (h.layouts ((panels _).trans (setCommit_layoutOnly _ _))) (h.postEvent _ _))
      (h.layouts (commit_layoutOnly _ _))

theorem movePanel (p : PanelId) (l : Layout) (s : State) : R s (movePanel p l s) :=
  h.trans (h.trans (h.trans (h.layouts (setPanelLayout_layoutOnly p .next l.epoch s)) (h.purge p l.epoch _))
    (h.fillAtSwitch p l _)) (h.layouts (setCommit_layoutOnly _ _))

theorem switchPanel (end_ : CommitState) (outcome : CommandOutcome) (p : PanelId) (s : State) :
    R s (switchPanel end_ outcome p s) := by
  unfold Machine.switchPanel
  split
  · exact h.refl s
  · exact ite_keeps (h.trans (h.movePanel p _ s) (ite_keeps (h.completeCommit end_ outcome _) (h.refl _))) (h.refl s)

theorem becomeUnsynced (p : PanelId) (cause : Nat) (s : State) : R s (becomeUnsynced p cause s) := by
  unfold Machine.becomeUnsynced
  exact ite_keeps (h.refl s)
    (h.trans (h.trans (h.aside (setSync_aside p _ s)) (h.postEvent _ _)) (h.switchPanel _ _ p _))

theorem latchSync (old new : Geometry) (p : PanelId) (s : State) : R s (latchSync old new p s) := by
  unfold Machine.latchSync
  split
  · exact ite_keeps (h.becomeUnsynced _ _ s) (h.refl s)
  · exact h.refl s
  · exact h.aside ((setSync_aside p _ s).trans (flag_aside _ _))

theorem latchGeometry (s : State) : R s (latchGeometry s) := by
  have geometry : ∀ (s : State) g, LayoutOnly s { s with geometry := g } := fun _ _ => by constructor <;> rfl
  have latched : R s { s with
      geometry := shadowGeometry s.shadow, holds := s.holds.map fun w => { w with latched := true } } :=
    h.trans (h.latchHolds s) (h.layouts (geometry _ _))
  unfold Machine.latchGeometry
  exact h.trans (h.trans latched (h.foldl (fun s p => h.latchSync _ _ p s) _ _)) (h.clearFills _)

theorem toRespected : Respected R where
  refl := h.refl
  trans := h.trans
  aside := h.aside
  postEvent := h.postEvent
  postEnded := h.postEnded
  consumerWritten := h.consumerWritten
  grantEvent := h.grantEvent
  resetPoster := h.resetPoster
  shadowPhase := h.shadowPhase
  cadence := h.cadence
  awaiting := h.awaiting
  activeRecords _ _ := h.layouts (by constructor <;> rfl)
  nextRecords _ _ _ _ := h.layouts (by constructor <;> rfl)
  enable := h.enable
  disable := h.disable
  joinMarking := h.joinMarking
  answered := h.answered
  endCurrent := h.endCurrent
  startEntry := h.startEntry
  fillIssued := h.fillIssued
  clearFills := h.clearFills
  switchPanel end_ outcome p s _ := h.switchPanel end_ outcome p s
  late _ _ := h.layouts (commit_layoutOnly _ _)
  refuse _ _ _ _ := h.layouts (setCommit_layoutOnly _ _)
  beginCommit _ _ _ _ := h.layouts (beginCommit_layoutOnly _ _)
  replaceActive _ _ _ := h.layouts (replaceActive_layoutOnly _ _)
  enterRun _ _ _ := h.trans (h.latchGeometry _) (h.layouts (setMode_layoutOnly _ _))
  enterSetup _ := h.trans (h.foldl (fun s p => h.switchPanel .forced .forced p s) _ _)
    (h.layouts (setMode_layoutOnly _ _))
  resetBlocks := h.resetBlocks
  grantPass := h.grantPass
  grantExpansion := h.grantExpansion

end RespectedByBlocks

end Sys2Proof.Steps

/-! The walk for what an operation does to the event ring of the Poster. Most operations touch the Poster by setting posting
flags and handing events over alone: a relation between Posters that those two keep holds across them. -/

namespace Sys2Proof.Steps

open Sys2Proof Sys2Proof.Machine

/-- What stays of the exposure list when a whole-panel fallback takes the waiting entries of a panel out (R122). -/
def keptExposure (p : PanelId) (s : State) : List ResolveEntry :=
  (if s.channel0.current then s.exposure.take 1 else []) ++ (waitingExposure s).filter fun e => !(e.panel == p)

/-- The waiting entries of a panel leave the exposure list (R122). -/
def withdrawPanel (p : PanelId) (s : State) : State :=
  lowerCauses ((waitingExposure s).filter fun e => e.panel == p) { s with exposure := keptExposure p s }

/-- The entry of a whole panel (R122). -/
def wholePanelEntry (p : PanelId) (epoch : Half) (s : State) : ResolveEntry :=
  { panel := p, x := 0, y := 0, w := s.geometry.panelWidth, h := s.geometry.panelHeight, epoch := epoch, cause := none,
    rowsDone := 0 }

theorem wholePanelFallback_eq (p : PanelId) (epoch : Half) (formed : Nat) (s : State) :
    wholePanelFallback p epoch formed s
      = if (withdrawPanel p s).exposure.length < Config.exposureCapacity then
          postEvent (evFillFallback p formed ((waitingExposure s).filter fun e => e.panel == p).length)
            (joinExposure [wholePanelEntry p epoch s] (withdrawPanel p s))
        else postEvent (evFillLost .resolve p.val formed) (withdrawPanel p s) := by
  unfold wholePanelFallback withdrawPanel keptExposure wholePanelEntry
  dsimp only

/-- A relation between Posters that reads the ring alone, and that handing over an event keeps. -/
structure RingLaw (Q : Poster → Poster → Prop) : Prop where
  same : ∀ {p q : Poster}, q.allocation = p.allocation → q.producer = p.producer → q.events = p.events →
    q.issued = p.issued → Q p q
  after : ∀ {p q r}, Q p q → Q q r → Q p r
  handedOver : ∀ m now e p, Q p (handedOver m now e p)

/-- The Posters of two states are so related. -/
def PosterRel (Q : Poster → Poster → Prop) (s t : State) : Prop := Q s.poster t.poster

namespace RingLaw

variable {Q : Poster → Poster → Prop} (h : RingLaw Q)
include h

theorem refl (s : State) : PosterRel Q s s := h.same rfl rfl rfl rfl

theorem trans {s t u : State} (a : PosterRel Q s t) (b : PosterRel Q t u) : PosterRel Q s u := h.after a b

theorem unmoved {s t : State} (same : t.poster = s.poster) : PosterRel Q s t := by
  unfold PosterRel
  rw [same]
  exact h.same rfl rfl rfl rfl

theorem setQueue (q : List Record) (s : State) : PosterRel Q s (Machine.setQueue q s) := h.same rfl rfl rfl rfl

theorem holds (ws : List Held) (s : State) : PosterRel Q s { s with holds := ws } := h.unmoved rfl

theorem setCommit (c : Commit) (s : State) : PosterRel Q s (Machine.setCommit c s) := h.same rfl rfl rfl rfl

theorem setCadence (src : SourceId) (c : Cadence) (s : State) : PosterRel Q s (Machine.setCadence src c s) :=
  h.same rfl rfl rfl rfl

theorem aside {s t : State} (change : Aside s t) : PosterRel Q s t :=
  h.same change.allocation change.producer change.events change.issued

theorem foldl {α : Type} {f : State → α → State} (hf : ∀ s x, PosterRel Q s (f s x)) (l : List α) (s : State) :
    PosterRel Q s (l.foldl f s) :=
  foldl_keeps (R := PosterRel Q) h.refl h.trans f hf l s

theorem postEvent (e : Event) (s : State) : PosterRel Q s (postEvent e s) := h.handedOver _ _ e _

/-! ### The Fill Engine -/

theorem setChannel (c : ChannelId) (ch : Channel) (s : State) : PosterRel Q s (setChannel c ch s) :=
  h.same rfl rfl rfl rfl

theorem setCount (w : WindowId) (n : Nat) (s : State) : PosterRel Q s (setCount w n s) := h.same rfl rfl rfl rfl

theorem entryJoined (c : ChannelId) (s : State) : PosterRel Q s (entryJoined c s) := by
  unfold Machine.entryJoined
  split
  · split <;> exact h.setChannel _ _ s
  · exact h.refl _

theorem entryEnded (c : ChannelId) (s : State) : PosterRel Q s (entryEnded c s) := by
  unfold Machine.entryEnded
  split
  · exact h.trans (h.setChannel _ _ s) (h.setChannel _ _ _)
  · split
    · exact h.setChannel _ _ s
    · exact h.refl _

theorem emptiedByDiscards (c : ChannelId) (s : State) : PosterRel Q s (emptiedByDiscards c s) := by
  unfold Machine.emptiedByDiscards
  dsimp only
  split
  · exact h.trans (h.setChannel _ _ s) (h.setChannel _ _ _)
  · exact h.setChannel _ _ s

theorem lowerCause (e : ResolveEntry) (s : State) : PosterRel Q s (lowerCause e s) := by
  unfold Machine.lowerCause
  split
  · exact h.refl _
  · exact h.setCount _ _ s

theorem lowerCauses (es : List ResolveEntry) (s : State) : PosterRel Q s (lowerCauses es s) :=
  h.foldl (fun s e => h.lowerCause e s) es s

theorem dropHead (c : ChannelId) (s : State) : PosterRel Q s (dropHead c s) := by
  cases c with
  | zero =>
    unfold Machine.dropHead
    dsimp only
    split
    · exact h.refl _
    · next e rest _ => exact h.lowerCause e { s with exposure := rest }
  | one => exact h.refl _

theorem endCurrent (c : ChannelId) (o : LastOutcome) (s : State) : PosterRel Q s (endCurrent c o s) :=
  h.trans (h.trans (h.dropHead c s) (h.setChannel c _ _)) (h.entryEnded c _)

theorem joinExposure (es : List ResolveEntry) (s : State) : PosterRel Q s (joinExposure es s) := by
  unfold Machine.joinExposure
  split
  · exact h.refl _
  · refine h.trans (h.foldl (fun s e => ?raised) _ { s with exposure := s.exposure ++ es }) (h.entryJoined _ _)
    split
    · exact h.refl _
    · exact h.setCount _ _ s

theorem joinMarking (es : List BorderEntry) (s : State) : PosterRel Q s (joinMarking es s) := by
  unfold Machine.joinMarking
  split
  · exact h.refl _
  · exact h.entryJoined .one { s with marking := s.marking ++ es }

theorem withdrawPanel (p : PanelId) (s : State) : PosterRel Q s (withdrawPanel p s) := by
  unfold Steps.withdrawPanel
  exact h.lowerCauses _ { s with exposure := keptExposure p s }

theorem wholePanelFallback (p : PanelId) (epoch : Half) (formed : Nat) (s : State) :
    PosterRel Q s (wholePanelFallback p epoch formed s) := by
  rw [wholePanelFallback_eq]
  have withdrawn := h.withdrawPanel p s
  exact ite_keeps (h.trans (h.trans withdrawn (h.joinExposure _ _)) (h.postEvent _ _))
    (h.trans withdrawn (h.postEvent _ _))

theorem fillAtSwitch (p : PanelId) (l : Layout) (s : State) : PosterRel Q s (fillAtSwitch p l s) := by
  unfold Machine.fillAtSwitch
  dsimp only
  split
  · exact h.joinExposure _ s
  · exact h.wholePanelFallback _ _ _ s

theorem setRowsDone (c : ChannelId) (n : Nat) (s : State) : PosterRel Q s (setRowsDone c n s) := by
  cases c <;> unfold Machine.setRowsDone <;> dsimp only <;> split <;> exact h.refl _

theorem beginRow (c : ChannelId) (n : Nat) (s : State) : PosterRel Q s (beginRow c n s) :=
  h.trans (h.setRowsDone c _ s) (h.setChannel c _ _)

theorem discardExposure (l : List ResolveEntry) (s : State) : PosterRel Q s (discardExposure l s) := by
  induction l generalizing s with
  | nil => exact h.refl _
  | cons e rest ih =>
    unfold Machine.discardExposure
    split
    · exact h.refl _
    · exact h.trans (h.lowerCause e { s with exposure := rest }) (ih _)

theorem discardHeads (c : ChannelId) (s : State) : PosterRel Q s (discardHeads c s) := by
  cases c with
  | zero => exact h.discardExposure _ s
  | one =>
    unfold Machine.discardHeads
    dsimp only
    split <;> exact h.refl _

theorem startEntry (c : ChannelId) (s : State) : PosterRel Q s (startEntry c s) := by
  have discarded := h.discardHeads c s
  unfold Machine.startEntry
  dsimp only
  split
  · exact h.trans discarded (h.emptiedByDiscards c _)
  · exact h.trans (h.trans (h.trans discarded (h.setChannel c _ _)) (h.setRowsDone c 0 _)) (h.beginRow c 0 _)

theorem fillIssued (c : ChannelId) (s : State) : PosterRel Q s (fillIssued c s) := by
  unfold Machine.fillIssued
  dsimp only
  split
  · exact h.trans (h.setChannel c _ s) (h.beginRow c _ _)
  · exact h.setChannel c _ s

theorem clearFills (s : State) : PosterRel Q s (clearFills s) :=
  h.trans (h.lowerCauses s.exposure { s with exposure := [], marking := [] }) (h.same rfl rfl rfl rfl)

/-! ### The Expansion Queue -/

theorem enqueue (r : Record) (s : State) : PosterRel Q s (enqueue r s) := h.same rfl rfl rfl rfl

theorem enterPass (t : Txn) (s : State) : PosterRel Q s (enterPass t s) := by
  unfold Machine.enterPass
  split <;> exact h.refl _

theorem expandFrom (fuel : Nat) (run : Run) (place : Position) (s : State) :
    PosterRel Q s (expandFrom fuel run place s).1 := by
  induction fuel generalizing place s with
  | zero => exact h.refl _
  | succ fuel ih =>
    unfold Machine.expandFrom
    split
    · exact h.refl _
    · split
      · exact h.trans (h.enqueue _ s) (ih _ _)
      · exact h.refl _

theorem expandStretch {run : Run} {place : Position} {s s' : State} {ending : Stretch}
    (stretch : Machine.expandStretch run place s = (s', ending)) : PosterRel Q s s' := by
  have expanded := h.expandFrom (Config.shareLimit + 1) run place s
  unfold Machine.expandStretch at stretch
  rwa [stretch] at expanded

theorem finishAperture (t : Txn) (src : SourceId) (s : State) : PosterRel Q s (finishAperture t src s) := by
  unfold Machine.finishAperture
  split
  · exact h.refl _
  · exact h.enterPass _ s

theorem walkTurns (l : List Held) (s : State) : PosterRel Q s (walkTurns l s).1 := by
  induction l generalizing s with
  | nil => exact h.refl _
  | cons w rest ih =>
    unfold Machine.walkTurns
    split
    · exact h.trans (h.finishAperture _ _ s) (ih _)
    · split
      · exact h.trans (h.enqueue _ s) (ih _)
      · exact ih s

theorem walkContinue (l : List (Held × Bool)) (s : State) : PosterRel Q s (walkContinue l s).1 := by
  induction l generalizing s with
  | nil => exact h.refl _
  | cons turn rest ih =>
    obtain ⟨w, joined⟩ := turn
    cases joined with
    | false => exact ih s
    | true =>
      unfold Machine.walkContinue
      split
      · next stretch => exact h.trans (h.trans (h.expandStretch stretch) (h.finishAperture _ _ _)) (ih _)
      · next stretch => exact h.trans (h.expandStretch stretch) (ih _)

theorem walk (s : State) : PosterRel Q s (walk s) :=
  h.trans (h.walkTurns s.holds s) (h.walkContinue _ _)

theorem purge (p : PanelId) (epoch : Half) (s : State) : PosterRel Q s (purge p epoch s) := by
  unfold Machine.purge
  dsimp only
  split
  · exact h.walk s
  · exact h.trans (h.setQueue _ s) (h.walk _)

theorem liveOverrun (by_ : Initiator) (run : Run) (r : Record) (s : State) :
    PosterRel Q s (liveOverrun by_ run r s) := by
  unfold Machine.liveOverrun
  split
  · exact h.refl _
  · exact h.postEvent _ { s with overrun := put s.overrun run.source true }

theorem expandNew (t : Txn) (run : Run) (s : State) : PosterRel Q s (expandNew t run s) := by
  unfold Machine.expandNew
  split
  · next stretch => exact h.trans (h.expandStretch stretch) (h.finishAperture _ _ _)
  · next stretch =>
    split
    · exact h.trans (h.trans (h.expandStretch stretch) (h.liveOverrun _ _ _ _)) (h.finishAperture _ _ _)
    · exact h.trans (h.expandStretch stretch) (h.holds _ _)

theorem grantExpansion (tag : Tag) (s : State) : PosterRel Q s (grantExpansion tag s) := by
  unfold Machine.grantExpansion
  split
  · exact h.refl _
  · next r rest _ =>
    have left := h.aside (issueOwn_aside tag (.expansion r.window r.panel) (recordTxn tag r) (Machine.setQueue rest s))
    exact h.trans (h.setQueue rest s) (h.trans left (h.walk _))

/-! ### A wall reset, and the cadence records -/

theorem setCadences (c : SourceId → Cadence) (l : List SourceId) (s : State) :
    PosterRel Q s (l.foldl (fun s src => Machine.setCadence src (c src) s) s) :=
  h.foldl (fun s src => h.setCadence src (c src) s) l s

theorem abandonCommit (s : State) : PosterRel Q s (abandonCommit s) := by
  unfold Machine.abandonCommit
  dsimp only
  split
  · exact h.trans (h.setCommit _ s) (h.postEvent _ _)
  · exact h.refl _

theorem quarantineAll (s : State) : PosterRel Q s (quarantineAll s) := by
  have flagged : ∀ b (s : State), PosterRel Q s (flagIf b .quarantined s) := fun _ _ => h.same rfl rfl rfl rfl
  unfold Machine.quarantineAll reportExhausted
  dsimp only
  split
  · exact h.trans (flagged _ _) (h.postEvent _ _)
  · exact flagged _ _

theorem resetBlocks (s : State) : PosterRel Q s (resetBlocks s) := by
  have first := Indicators.inEitherOrder_keeps (R := PosterRel Q) h.trans (fun _ s => h.refl s)
    h.abandonCommit h.quarantineAll s
  exact h.trans first (h.same rfl rfl rfl rfl)

/-- The four operations of the Poster itself are left to be tested. -/
theorem respected (postEnded : ∀ off s, PosterRel Q s (postEnded off s))
    (consumerWritten : ∀ s, PosterRel Q s (consumerWritten s))
    (grantEvent : ∀ tag s, PosterRel Q s (grantEvent tag s))
    (resetPoster : ∀ s, PosterRel Q s (resetPoster s)) : RespectedByBlocks (PosterRel Q) where
  refl := h.refl
  trans := h.trans
  layouts change := h.same change.allocation change.producer change.events change.issued
  postEvent := h.postEvent
  postEnded := postEnded
  consumerWritten := consumerWritten
  grantEvent := grantEvent
  resetPoster := resetPoster
  shadowPhase _ _ := h.refl _
  cadence _ _ _ := h.refl _
  awaiting s := h.setCadences _ _ s
  enable _ _ _ := h.same rfl rfl rfl rfl
  disable _ _ := h.same rfl rfl rfl rfl
  joinMarking es s _ := h.joinMarking es s
  answered c s := h.setChannel c _ s
  endCurrent c o s _ := h.endCurrent c o s
  startEntry c s _ := h.startEntry c s
  fillIssued := h.fillIssued
  clearFills := h.clearFills
  purge := h.purge
  fillAtSwitch := h.fillAtSwitch
  latchHolds _ := h.refl _
  resetBlocks := h.resetBlocks
  grantPass s := by
    unfold Machine.grantPass
    split <;> exact h.refl _
  grantExpansion := h.grantExpansion

end RingLaw

end Sys2Proof.Steps

/-! PROOFS of O55: the slots of the event ring stay in order. -/

namespace Sys2Proof.RingOrder

open Sys2Proof Sys2Proof.Machine Sys2Proof.Steps

/-- `n` slots of the ring in order from `p` on. -/
def slotsFrom (p : Slot) (n : Nat) : List Slot := (List.range n).map fun k => p + BitVec.ofNat 8 k

theorem slotsFrom_succ (p : Slot) (n : Nat) : slotsFrom p (n + 1) = slotsFrom p n ++ [p + BitVec.ofNat 8 n] := by
  simp [slotsFrom, List.range_succ]

theorem slot_add_add (p : Slot) (n m : Nat) : p + BitVec.ofNat 8 n + BitVec.ofNat 8 m = p + BitVec.ofNat 8 (n + m) := by
  rw [BitVec.add_assoc, BitVec.ofNat_add]

theorem slotsFrom_cons (p : Slot) (n : Nat) : slotsFrom p (n + 1) = p :: slotsFrom (p + 1) n := by
  induction n with
  | zero => simp [slotsFrom]
  | succ n ih =>
    rw [slotsFrom_succ, ih, slotsFrom_succ (p + 1) n, Nat.add_comm n 1, ← slot_add_add]
    rfl

/-- The slots between the producer and the allocation index, as the lists have them. -/
def slotsOf (p : Poster) : List Slot := p.issued.map (·.1) ++ p.events.map (·.slot)

/-- The slots of the event ring stand in order (R165, R166). -/
structure RingIn (p : Poster) : Prop where
  slots : slotsOf p = slotsFrom p.producer (slotsOf p).length
  allocation : p.allocation = p.producer + BitVec.ofNat 8 (slotsOf p).length

theorem slotsOf_length (p : Poster) : (slotsOf p).length = p.issued.length + p.events.length := by simp [slotsOf]

theorem ringOrdered_iff (s : State) : RingOrdered s ↔ RingIn s.poster := by
  have states : RingIn s.poster ↔ slotsOf s.poster = slotsFrom s.poster.producer (slotsOf s.poster).length
      ∧ s.poster.allocation = s.poster.producer + BitVec.ofNat 8 (slotsOf s.poster).length :=
    ⟨fun h => ⟨h.slots, h.allocation⟩, fun h => ⟨h.1, h.2⟩⟩
  rw [states, slotsOf_length]
  exact Iff.rfl

theorem RingIn.congr {p q : Poster} (h : RingIn p) (allocation : q.allocation = p.allocation)
    (producer : q.producer = p.producer) (slots : slotsOf q = slotsOf p) : RingIn q := by
  refine ⟨?_, ?_⟩ <;> rw [slots, producer]
  · exact h.slots
  · rw [allocation, h.allocation]

theorem slotsOf_allocated (now : Word) (e : Event) (p : Poster) :
    slotsOf (allocated now e p) = slotsOf p ++ [p.allocation] := by
  simp [slotsOf, Machine.allocated, recordOf]

theorem RingIn.allocated {p : Poster} (h : RingIn p) (now : Word) (e : Event) : RingIn (allocated now e p) := by
  refine ⟨?_, ?_⟩
  · rw [slotsOf_allocated, List.length_append]
    show slotsOf p ++ [p.allocation] = slotsFrom p.producer ((slotsOf p).length + 1)
    rw [slotsFrom_succ, ← h.slots, ← h.allocation]
  · rw [slotsOf_allocated, List.length_append]
    show p.allocation + 1 = p.producer + BitVec.ofNat 8 ((slotsOf p).length + 1)
    rw [h.allocation, ← slot_add_add]
    rfl

theorem ringLaw : RingLaw fun p q => RingIn p → RingIn q where
  same allocation producer events issued h := h.congr allocation producer (by simp [slotsOf, events, issued])
  after h k ordered := k (h ordered)
  handedOver m now e p h := by
    unfold handedOver
    split
    · split
      · exact h.congr rfl rfl rfl
      · exact h.allocated now e
    · exact h

/-! ### The operations of the Poster itself -/

theorem passEnded_slots (p : Slot) (l : List (Slot × Bool)) (n : Nat) (rest : List Slot)
    (h : l.map (·.1) ++ rest = slotsFrom p n) :
    ∃ m, (passEnded p l).2.map (·.1) ++ rest = slotsFrom (passEnded p l).1 m
      ∧ (passEnded p l).1 + BitVec.ofNat 8 m = p + BitVec.ofNat 8 n := by
  induction l generalizing p n with
  | nil => exact ⟨n, h, rfl⟩
  | cons e l ih =>
    obtain ⟨k, ended⟩ := e
    cases ended with
    | false => exact ⟨n, h, rfl⟩
    | true =>
      cases n with
      | zero => simp [slotsFrom] at h
      | succ n =>
        rw [slotsFrom_cons] at h
        obtain ⟨rfl, tail⟩ := List.cons.inj h
        obtain ⟨m, slots, stop⟩ := ih (k + 1) n tail
        refine ⟨m, slots, stop.trans ?_⟩
        rw [Nat.add_comm n 1]
        exact slot_add_add k 1 n

theorem RingIn.advanced {s : State} (h : RingIn s.poster) : RingIn (advanceProducer s).poster := by
  obtain ⟨m, slots, stop⟩ := passEnded_slots s.poster.producer s.poster.issued _ _ h.slots
  have length : (slotsOf (advanceProducer s).poster).length = m := by
    rw [show slotsOf (advanceProducer s).poster = _ from slots, slotsFrom, List.length_map, List.length_range]
  refine ⟨?_, ?_⟩ <;> rw [length]
  · exact slots
  · exact h.allocation.trans stop.symm

theorem markEnded_slots (k : Slot) (l : List (Slot × Bool)) : (markEnded k l).map (·.1) = l.map (·.1) := by
  induction l with
  | nil => rfl
  | cons e l ih =>
    unfold markEnded
    split
    · rfl
    · simp [ih]

theorem RingIn.postEnded {s : State} (h : RingIn s.poster) (off : Nat) : RingIn (postEnded off s).poster := by
  unfold Machine.postEnded
  split
  · exact h
  · refine RingIn.advanced (h.congr rfl rfl ?_)
    simp [slotsOf, markEnded_slots]

theorem RingIn.consumerWritten {s : State} (h : RingIn s.poster) : RingIn (consumerWritten s).poster := by
  show RingIn (overflowReported _ _ _)
  unfold overflowReported
  split
  · exact (h.allocated s.wallTime (evRingOverflow s.poster.dropped)).congr rfl rfl rfl
  · exact h

theorem RingIn.grantEvent {s : State} (h : RingIn s.poster) (tag : Tag) : RingIn (grantEvent tag s).poster := by
  unfold Machine.grantEvent
  split
  · exact h
  · next e rest head => exact h.congr rfl rfl (by simp [slotsOf, head])

theorem RingIn.resetPoster {s : State} (h : RingIn s.poster) : RingIn (resetPoster s).poster :=
  RingIn.advanced (h.congr rfl rfl (by simp [slotsOf, Function.comp_def]))

theorem ringIn_empty {p : Poster} (events : p.events = []) (issued : p.issued = [])
    (same : p.allocation = p.producer) : RingIn p := by
  refine ⟨?_, ?_⟩ <;> simp [slotsOf, slotsFrom, events, issued, same]

theorem ringIn_respected : RespectedByPort (PosterRel fun p q => RingIn p → RingIn q) where
  toRespected := (ringLaw.respected (fun off _ h => h.postEnded off) (fun _ h => h.consumerWritten)
    (fun tag _ h => h.grantEvent tag) (fun _ h => h.resetPoster)).toRespected
  enterPass := ringLaw.enterPass
  expandNew := ringLaw.expandNew
  lines _ s := ringLaw.refl s
  assertReset s := ringLaw.refl s
  releaseReset _ _ _ _ := ringIn_empty rfl rfl rfl

/-- Settles O55: handing over an event appends the allocation index to the slots; the producer index passes slots at the
head alone; the other operations of the Poster leave the slots. -/
theorem ringOrderKept : Obligations.RingOrderKept := fun s t ordered taken =>
  (ringOrdered_iff t).2 (invariant_step (I := fun s => RingIn s.poster) ringIn_respected ((ringOrdered_iff s).1 ordered) taken)

end Sys2Proof.RingOrder

/-! PROOFS of O58, O51 and O54: the invariants of single blocks: the shadow, the Expansion Queue, the sources. -/

namespace Sys2Proof.BlockInvariants

open Sys2Proof Sys2Proof.Machine Sys2Proof.Steps

/-! ## What the larger operations leave -/

/-- From `s` to `t` the blocks stay that these invariants are about. -/
structure BlocksStay (s t : State) : Prop where
  ponrst : t.ponrst = s.ponrst
  shadow : t.shadow = s.shadow
  apertures : t.apertures = s.apertures
  cadence : t.cadence = s.cadence
  queue : t.queue = s.queue
  holds : t.holds = s.holds
  passFifo : t.passFifo = s.passFifo
  passWait : t.passWait = s.passWait
  lines : t.lines = s.lines

theorem BlocksStay.trans {s t u : State} (h : BlocksStay s t) (k : BlocksStay t u) : BlocksStay s u where
  ponrst := k.ponrst.trans h.ponrst
  shadow := k.shadow.trans h.shadow
  apertures := k.apertures.trans h.apertures
  cadence := k.cadence.trans h.cadence
  queue := k.queue.trans h.queue
  holds := k.holds.trans h.holds
  passFifo := k.passFifo.trans h.passFifo
  passWait := k.passWait.trans h.passWait
  lines := k.lines.trans h.lines

theorem abandonCommit_stays (s : State) : BlocksStay s (abandonCommit s) := by
  unfold abandonCommit
  split <;> constructor <;> rfl

theorem quarantineAll_stays (s : State) : BlocksStay s (quarantineAll s) := by
  unfold quarantineAll reportExhausted
  dsimp only
  split <;> constructor <;> rfl

/-- What a wall reset does before it clears the queue. -/
theorem beforeReset_stays (s : State) : BlocksStay s (inEitherOrder abandonCommit quarantineAll s) :=
  Indicators.inEitherOrder_keeps (R := BlocksStay) BlocksStay.trans (fun _ _ => by constructor <;> rfl)
    abandonCommit_stays quarantineAll_stays s

theorem awaiting_only (s : State) :
    MoveOnly s ((enabledSources s).foldl (fun s src => setCadence src (.zeroed .awaiting) s) s) :=
  foldl_keeps MoveOnly.refl MoveOnly.trans _ (fun s src => setCadence_only src _ s) _ s

theorem fillIssued_only (c : ChannelId) (s : State) : FillOnly s (fillIssued c s) := by
  unfold fillIssued
  exact ite_keeps ((setChannel_only c _ s).trans (beginRow_only c _ _)) (setChannel_only c _ s)

/-- From `s` to `t` the shadow, the sources and the Fill Engine stay. -/
structure OutsideQueue (s t : State) : Prop where
  shadow : t.shadow = s.shadow
  apertures : t.apertures = s.apertures
  cadence : t.cadence = s.cadence
  fillCount : t.fillCount = s.fillCount
  exposure : t.exposure = s.exposure
  marking : t.marking = s.marking
  channel0 : t.channel0 = s.channel0
  channel1 : t.channel1 = s.channel1

theorem OutsideQueue.trans {s t u : State} (h : OutsideQueue s t) (k : OutsideQueue t u) : OutsideQueue s u where
  shadow := k.shadow.trans h.shadow
  apertures := k.apertures.trans h.apertures
  cadence := k.cadence.trans h.cadence
  fillCount := k.fillCount.trans h.fillCount
  exposure := k.exposure.trans h.exposure
  marking := k.marking.trans h.marking
  channel0 := k.channel0.trans h.channel0
  channel1 := k.channel1.trans h.channel1

theorem outside_of_walk {s t : State} (h : WalkOnly s t) : OutsideQueue s t where
  shadow := h.shadow
  apertures := h.apertures
  cadence := h.cadence
  fillCount := h.fillCount
  exposure := h.exposure
  marking := h.marking
  channel0 := h.channel0
  channel1 := h.channel1

theorem grantPass_outside (s : State) : OutsideQueue s (grantPass s) := by
  unfold grantPass
  split <;> constructor <;> rfl

theorem grantExpansion_outside (tag : Tag) (s : State) : OutsideQueue s (grantExpansion tag s) := by
  unfold grantExpansion
  split
  · constructor <;> rfl
  · next r rest _ =>
    have issued : OutsideQueue s (issueOwn tag (.expansion r.window r.panel) (recordTxn tag r) (setQueue rest s)) := by
      constructor <;> rfl
    exact issued.trans (outside_of_walk (walk_only _))

theorem liveOverrun_outside (i : Initiator) (run : Run) (r : Record) (s : State) :
    OutsideQueue s (liveOverrun i run r s) := by
  unfold liveOverrun
  split <;> constructor <;> rfl

theorem expandNew_outside (t : Txn) (run : Run) (s : State) : OutsideQueue s (expandNew t run s) := by
  have stretched := expandStretch_only run .first s
  unfold expandNew
  split
  · next stretch =>
    rw [stretch] at stretched
    exact outside_of_walk (stretched.trans (finishAperture_only t run.source _))
  · next stretch =>
    rw [stretch] at stretched
    split
    · exact ((outside_of_walk stretched).trans (liveOverrun_outside _ _ _ _)).trans
        (outside_of_walk (finishAperture_only t run.source _))
    · exact outside_of_walk (stretched.trans (holds_only _ _))

/-! ## The shadow (O58) -/

/-- The shadow stays canonical. -/
def KeepsForm (s t : State) : Prop := shadowWf s.shadow = true → shadowWf t.shadow = true

theorem KeepsForm.of_shadow {s t : State} (same : t.shadow = s.shadow) : KeepsForm s t := fun h => same ▸ h

theorem mergeWords_wf (words : List ControlWord) (m : Shadow) (h : shadowWf m = true) :
    shadowWf (words.foldl mergeWord m) = true := by
  induction words generalizing m with
  | nil => exact h
  | cons w words ih => exact ih _ (shadowWriteBytes_wf _ _ _ h)

theorem blankStages_wf (ws : List WindowId) (m : Shadow) (h : shadowWf m = true) :
    shadowWf (ws.foldl (fun m w => shadowWriteBytes m (stageOffset w) blankStage) m) = true := by
  induction ws generalizing m with
  | nil => exact h
  | cons w ws ih =>
    rw [List.foldl_cons]
    exact ih _ (shadowWriteBytes_wf m (stageOffset w) blankStage h)

theorem keepsForm : RespectedByPort KeepsForm where
  toRespected := RespectedByBlocks.toRespected {
    refl := fun _ h => h
    trans := fun h k wf => k (h wf)
    layouts := fun change => .of_shadow change.shadow
    postEvent := fun _ _ => .of_shadow rfl
    postEnded := fun off s => .of_shadow (postEnded_ringOnly off s).shadow
    consumerWritten := fun _ => .of_shadow rfl
    grantEvent := fun tag s => .of_shadow (grantEvent_ringOnly tag s).shadow
    resetPoster := fun _ => .of_shadow rfl
    shadowPhase := fun words s => mergeWords_wf words s.shadow
    cadence := fun _ _ _ => .of_shadow rfl
    awaiting := fun s => .of_shadow (awaiting_only s).shadow
    enable := fun _ _ _ => .of_shadow rfl
    disable := fun _ _ => .of_shadow rfl
    joinMarking := fun es s _ => .of_shadow (joinMarking_only es s).shadow
    answered := fun c s => .of_shadow (answered_only c s).shadow
    endCurrent := fun c o s _ => .of_shadow (endCurrent_only c o s).shadow
    startEntry := fun c s _ => .of_shadow (startEntry_only c s).shadow
    fillIssued := fun c s => .of_shadow (fillIssued_only c s).shadow
    clearFills := fun s => .of_shadow (clearFills_only s).shadow
    purge := fun p epoch s => .of_shadow (purge_only p epoch s).shadow
    fillAtSwitch := fun p l s => .of_shadow (fillAtSwitch_only p l s).shadow
    latchHolds := fun _ => .of_shadow rfl
    resetBlocks := fun s wf => by
      have unmoved : shadowWf (resetQueue (inEitherOrder abandonCommit quarantineAll s)).shadow = true :=
        (beforeReset_stays s).shadow.symm ▸ wf
      exact blankStages_wf _ _ unmoved
    grantPass := fun s => .of_shadow (grantPass_outside s).shadow
    grantExpansion := fun tag s => .of_shadow (grantExpansion_outside tag s).shadow }
  enterPass t s := .of_shadow (enterPass_only t s).shadow
  expandNew t run s := .of_shadow (expandNew_outside t run s).shadow
  lines _ _ := .of_shadow rfl
  assertReset _ := .of_shadow rfl
  releaseReset _ _ _ _ := rfl

/-- Settles O58: the shadow changes where it takes accepted words, and where a wall reset blanks STAGE windows; both are
writes of bytes, which keep the form. -/
theorem shadowFormKept : Obligations.ShadowFormKept := fun _ _ wf taken => invariant_step keepsForm wf taken

/-! ## The Expansion Queue (O51) -/

/-- The queue stays within its limits. -/
def KeepsBounds (s t : State) : Prop := QueueBounds s → QueueBounds t

theorem KeepsBounds.trans {s t u : State} (h : KeepsBounds s t) (k : KeepsBounds t u) : KeepsBounds s u :=
  fun bounds => k (h bounds)

/-- Records may leave the queue. -/
theorem KeepsBounds.of_sublist {s t : State} (fewer : t.queue.Sublist s.queue) : KeepsBounds s t := fun bounds =>
  ⟨Nat.le_trans fewer.length_le bounds.1, fun src => Nat.le_trans (fewer.countP_le) (bounds.2 src)⟩

theorem KeepsBounds.of_queue {s t : State} (same : t.queue = s.queue) : KeepsBounds s t :=
  .of_sublist (same ▸ List.Sublist.refl _)

/-- A record that passes the admission test may join. -/
theorem KeepsBounds.enqueue {s : State} {r : Record} (admitted : admissible s r.source = true) :
    KeepsBounds s (enqueue r s) := fun bounds => by
  simp only [admissible, Bool.and_eq_true, decide_eq_true_eq] at admitted
  obtain ⟨room, room_of_source⟩ := admitted
  refine ⟨?_, fun src => ?_⟩
  · show (s.queue ++ [r]).length ≤ _
    rw [List.length_append]
    exact room
  · show (s.queue ++ [r]).countP _ ≤ _
    rw [List.countP_append, List.countP_singleton]
    split
    · next same =>
      rw [← eq_of_beq same]
      exact room_of_source
    · exact bounds.2 src

theorem expandFrom_bounds (fuel : Nat) (run : Run) (place : Position) (s : State) :
    KeepsBounds s (expandFrom fuel run place s).1 := by
  induction fuel generalizing place s with
  | zero => exact .of_queue rfl
  | succ fuel ih =>
    unfold expandFrom
    split
    · exact .of_queue rfl
    · split
      · next admitted => exact (KeepsBounds.enqueue admitted).trans (ih _ _)
      · exact .of_queue rfl

theorem finishAperture_queue (t : Txn) (src : SourceId) (s : State) : (finishAperture t src s).queue = s.queue := by
  unfold finishAperture enterPass
  split
  · rfl
  · split <;> rfl

theorem expandStretch_bounds {run : Run} {place : Position} {s s' : State} {ending : Stretch}
    (stretch : expandStretch run place s = (s', ending)) : KeepsBounds s s' := by
  have expanded := expandFrom_bounds (Config.shareLimit + 1) run place s
  unfold expandStretch at stretch
  rwa [stretch] at expanded

theorem walkTurns_bounds (l : List Held) (s : State) : KeepsBounds s (walkTurns l s).1 := by
  induction l generalizing s with
  | nil => exact .of_queue rfl
  | cons w rest ih =>
    unfold walkTurns
    split
    · exact (KeepsBounds.of_queue (finishAperture_queue _ _ s)).trans (ih _)
    · split
      · next admitted => exact (KeepsBounds.enqueue admitted).trans (ih _)
      · exact ih s

theorem walkContinue_bounds (l : List (Held × Bool)) (s : State) : KeepsBounds s (walkContinue l s).1 := by
  induction l generalizing s with
  | nil => exact .of_queue rfl
  | cons turn rest ih =>
    obtain ⟨w, joined⟩ := turn
    cases joined with
    | false => exact ih s
    | true =>
      unfold walkContinue
      split
      · next stretch =>
        exact ((expandStretch_bounds stretch).trans (.of_queue (finishAperture_queue _ _ _))).trans (ih _)
      · next stretch => exact (expandStretch_bounds stretch).trans (ih _)

theorem walk_bounds (s : State) : KeepsBounds s (walk s) :=
  (walkTurns_bounds s.holds s).trans ((walkContinue_bounds _ _).trans (.of_queue rfl))

theorem purge_bounds (p : PanelId) (epoch : Half) (s : State) : KeepsBounds s (purge p epoch s) := by
  unfold purge
  dsimp only
  split
  · exact walk_bounds s
  · exact KeepsBounds.trans (.of_sublist List.filter_sublist) (walk_bounds (setQueue _ s))

theorem grantExpansion_bounds (tag : Tag) (s : State) : KeepsBounds s (grantExpansion tag s) := by
  unfold grantExpansion
  split
  · exact .of_queue rfl
  · next r rest head =>
    refine KeepsBounds.trans (.of_sublist ?_) (walk_bounds (issueOwn tag _ _ (setQueue rest s)))
    exact head ▸ List.sublist_cons_self r rest

theorem expandNew_bounds (t : Txn) (run : Run) (s : State) : KeepsBounds s (expandNew t run s) := by
  have overrun : ∀ r (s : State), (liveOverrun t.initiator run r s).queue = s.queue := fun r s => by
    unfold liveOverrun
    split <;> rfl
  unfold expandNew
  split
  · next stretch => exact (expandStretch_bounds stretch).trans (.of_queue (finishAperture_queue _ _ _))
  · next stretch =>
    split
    · exact (expandStretch_bounds stretch).trans (.of_queue ((finishAperture_queue _ _ _).trans (overrun _ _)))
    · exact (expandStretch_bounds stretch).trans (.of_queue rfl)

theorem queueBounds_empty {s : State} (empty : s.queue = []) : QueueBounds s := by
  simp [QueueBounds, share, empty]

theorem keepsBounds : RespectedByPort KeepsBounds where
  toRespected := RespectedByBlocks.toRespected {
    refl := fun _ h => h
    trans := KeepsBounds.trans
    layouts := fun change => .of_queue change.queue
    postEvent := fun _ _ => .of_queue rfl
    postEnded := fun off s => .of_queue (postEnded_ringOnly off s).queue
    consumerWritten := fun _ => .of_queue rfl
    grantEvent := fun tag s => .of_queue (grantEvent_ringOnly tag s).queue
    resetPoster := fun _ => .of_queue rfl
    shadowPhase := fun _ _ => .of_queue rfl
    cadence := fun _ _ _ => .of_queue rfl
    awaiting := fun s => .of_queue (awaiting_only s).queue
    enable := fun _ _ _ => .of_queue rfl
    disable := fun _ _ => .of_queue rfl
    joinMarking := fun es s _ => .of_queue (joinMarking_only es s).queue
    answered := fun c s => .of_queue (answered_only c s).queue
    endCurrent := fun c o s _ => .of_queue (endCurrent_only c o s).queue
    startEntry := fun c s _ => .of_queue (startEntry_only c s).queue
    fillIssued := fun c s => .of_queue (fillIssued_only c s).queue
    clearFills := fun s => .of_queue (clearFills_only s).queue
    purge := purge_bounds
    fillAtSwitch := fun p l s => .of_queue (fillAtSwitch_only p l s).queue
    latchHolds := fun _ => .of_queue rfl
    resetBlocks := fun _ _ => queueBounds_empty rfl
    grantPass := fun s => .of_queue (by unfold grantPass; split <;> rfl)
    grantExpansion := grantExpansion_bounds }
  enterPass t s := .of_queue (by unfold enterPass; split <;> rfl)
  expandNew := expandNew_bounds
  lines _ _ := .of_queue rfl
  assertReset _ := .of_queue rfl
  releaseReset _ _ _ _ := queueBounds_empty rfl

/-- Settles O51: only a record that passes the admission test joins the queue; every other operation that changes it takes
records out. -/
theorem queueBoundsKept : Obligations.QueueBoundsKept := fun _ _ bounds taken => invariant_step keepsBounds bounds taken

/-! ## The sources (O54) -/

/-- The sources stay in agreement. -/
def KeepsSources (s t : State) : Prop := SourcesCoherent s → SourcesCoherent t

theorem KeepsSources.of_states {s t : State} (apertures : t.apertures = s.apertures)
    (disabled : ∀ src : SourceId, t.cadence[src].state = .disabled ↔ s.cadence[src].state = .disabled) :
    KeepsSources s t := fun coherent => by
  refine ⟨fun src => ?_, fun i j a b => ?_⟩ <;> rw [apertures]
  · rw [coherent.enabled src, ne_eq, ne_eq, disabled src]
  · exact coherent.disjoint i j a b

theorem KeepsSources.of_same {s t : State} (apertures : t.apertures = s.apertures) (cadence : t.cadence = s.cadence) :
    KeepsSources s t :=
  .of_states apertures fun _ => by rw [cadence]

theorem cadence_setCadences (f : SourceId → Cadence) (l : List SourceId) (s : State) (src : SourceId) :
    (l.foldl (fun s src => setCadence src (f src) s) s).cadence[src] = if src ∈ l then f src else s.cadence[src] := by
  induction l generalizing s with
  | nil => rfl
  | cons first rest ih =>
    rw [List.foldl_cons, ih]
    show (if src ∈ rest then f src else (put s.cadence first (f first))[src]) = _
    by_cases here : first = src
    · subst here
      rw [put_self, if_pos List.mem_cons_self, ite_self]
    · rw [put_of_ne _ _ _ _ here]
      simp only [List.mem_cons, Ne.symm here, false_or]

theorem awaiting_sources (s : State) :
    KeepsSources s ((enabledSources s).foldl (fun s src => setCadence src (.zeroed .awaiting) s) s) := fun coherent =>
  KeepsSources.of_states (awaiting_only s).apertures (fun src => by
    rw [cadence_setCadences (fun _ => .zeroed .awaiting)]
    split
    · next listed =>
      have enabled : s.apertures[src].isSome = true := by simpa [enabledSources] using listed
      exact ⟨fun h => by simp [Cadence.zeroed] at h, fun h => absurd h ((coherent.enabled src).1 enabled)⟩
    · exact Iff.rfl) coherent

theorem sharesByte_comm (lo hi lo' hi' : Nat) : sharesByte lo' hi' lo hi = sharesByte lo hi lo' hi' := by
  simp only [sharesByte, Nat.max_comm lo' lo, Nat.min_comm hi' hi]

/-- An aperture that is enabled shares no byte with the working aperture of another source (R37). -/
theorem apart_of_accepted {s : State} {src o : SourceId} {b : Aperture} (accepted : enableRefusal s src = none)
    (other : o ≠ src) (working : s.apertures[o] = some b) :
    sharesByte (shadowAperture s.shadow src).base (apertureEnd (shadowAperture s.shadow src)) b.base (apertureEnd b)
      = false := by
  have none_fails := enableRefusal_iff.2.1 accepted
  rw [Bool.eq_false_iff]
  intro shared
  have meets : MeetsSource s src (shadowAperture s.shadow src) o := ⟨other, b, working, sharesByte_iff.1 shared⟩
  have decidable : ∀ q : SourceId, Decidable (MeetsSource s src (shadowAperture s.shadow src) q) := fun _ =>
    Classical.propDecidable _
  obtain ⟨least, found⟩ : ∃ q, (List.finRange 32).find? (fun q => decide (MeetsSource s src (shadowAperture s.shadow src) q))
      = some q := Option.isSome_iff_exists.1 (by
    rw [List.find?_isSome]
    exact ⟨o, List.mem_finRange o, decide_eq_true meets⟩)
  obtain ⟨first, before⟩ := find?_finRange_eq_some.1 found
  exact none_fails 6 _ (.apertureSource least (of_decide_eq_true first) fun q lower => by simpa using before q lower)

theorem enable_sources (src : SourceId) (s : State) (accepted : enableRefusal s src = none) :
    KeepsSources s (setCadence src (.zeroed .awaiting) (setAperture src (some (shadowAperture s.shadow src)) s)) := by
  intro coherent
  constructor
  · intro o
    show (put s.apertures src _)[o].isSome = true ↔ (put s.cadence src _)[o].state ≠ .disabled
    by_cases here : src = o
    · subst here
      rw [put_self, put_self]
      simp [Cadence.zeroed]
    · rw [put_of_ne _ _ _ _ here, put_of_ne _ _ _ _ here]
      exact coherent.enabled o
  · intro i j a b apart hi hj
    change (put s.apertures src _)[i] = some a at hi
    change (put s.apertures src _)[j] = some b at hj
    by_cases first : src = i
    · subst first
      rw [put_self] at hi
      rw [put_of_ne _ _ _ _ apart] at hj
      exact Option.some.inj hi ▸ apart_of_accepted accepted (Ne.symm apart) hj
    · rw [put_of_ne _ _ _ _ first] at hi
      by_cases second : src = j
      · subst second
        rw [put_self] at hj
        rw [sharesByte_comm]
        exact Option.some.inj hj ▸ apart_of_accepted accepted apart hi
      · rw [put_of_ne _ _ _ _ second] at hj
        exact coherent.disjoint i j a b apart hi hj

theorem disable_sources (src : SourceId) (s : State) :
    KeepsSources s (setCadence src (.zeroed .disabled) (setAperture src none s)) := by
  intro coherent
  constructor
  · intro o
    show (put s.apertures src none)[o].isSome = true ↔ (put s.cadence src _)[o].state ≠ .disabled
    by_cases here : src = o
    · subst here
      rw [put_self, put_self]
      simp [Cadence.zeroed]
    · rw [put_of_ne _ _ _ _ here, put_of_ne _ _ _ _ here]
      exact coherent.enabled o
  · intro i j a b apart hi hj
    have working : ∀ (o : SourceId) (c : Aperture), (put s.apertures src none)[o] = some c → s.apertures[o] = some c := fun o c h => by
      by_cases here : src = o
      · subst here
        rw [put_self] at h
        cases h
      · rwa [put_of_ne _ _ _ _ here] at h
    exact coherent.disjoint i j a b apart (working i a hi) (working j b hj)

theorem sourcesCoherent_powerOn (base : Byte) (prio : Initiator) : SourcesCoherent (State.powerOn base prio) where
  enabled src := by simp [State.powerOn, Cadence.zeroed]
  disjoint i j a b _ hi := by simp [State.powerOn] at hi

theorem keepsSources : RespectedByPort KeepsSources where
  toRespected := RespectedByBlocks.toRespected {
    refl := fun _ h => h
    trans := fun h k coherent => k (h coherent)
    layouts := fun change => .of_same change.apertures change.cadence
    postEvent := fun _ _ => .of_same rfl rfl
    postEnded := fun off s => .of_same (postEnded_ringOnly off s).apertures (postEnded_ringOnly off s).cadence
    consumerWritten := fun _ => .of_same rfl rfl
    grantEvent := fun tag s => .of_same (grantEvent_ringOnly tag s).apertures (grantEvent_ringOnly tag s).cadence
    resetPoster := fun _ => .of_same rfl rfl
    shadowPhase := fun _ _ => .of_same rfl rfl
    cadence := fun _ _ disabled => .of_states rfl disabled
    awaiting := awaiting_sources
    enable := enable_sources
    disable := disable_sources
    joinMarking := fun es s _ => .of_same (joinMarking_only es s).apertures (joinMarking_only es s).cadence
    answered := fun c s => .of_same (answered_only c s).apertures (answered_only c s).cadence
    endCurrent := fun c o s _ => .of_same (endCurrent_only c o s).apertures (endCurrent_only c o s).cadence
    startEntry := fun c s _ => .of_same (startEntry_only c s).apertures (startEntry_only c s).cadence
    fillIssued := fun c s => .of_same (fillIssued_only c s).apertures (fillIssued_only c s).cadence
    clearFills := fun s => .of_same (clearFills_only s).apertures (clearFills_only s).cadence
    purge := fun p epoch s => .of_same (purge_only p epoch s).apertures (purge_only p epoch s).cadence
    fillAtSwitch := fun p l s => .of_same (fillAtSwitch_only p l s).apertures (fillAtSwitch_only p l s).cadence
    latchHolds := fun _ => .of_same rfl rfl
    resetBlocks := fun s => .of_same (beforeReset_stays s).apertures (beforeReset_stays s).cadence
    grantPass := fun s => .of_same (grantPass_outside s).apertures (grantPass_outside s).cadence
    grantExpansion := fun tag s =>
      .of_same (grantExpansion_outside tag s).apertures (grantExpansion_outside tag s).cadence }
  enterPass t s := .of_same (enterPass_only t s).apertures (enterPass_only t s).cadence
  expandNew t run s := .of_same (expandNew_outside t run s).apertures (expandNew_outside t run s).cadence
  lines _ _ := .of_same rfl rfl
  assertReset _ := .of_same rfl rfl
  releaseReset base prio s _ := 
    KeepsSources.of_same (s := State.powerOn base prio) (t := releaseReset base prio s) rfl rfl
      (sourcesCoherent_powerOn base prio)

/-- Settles O54: an accepted enable latches an aperture apart from every working one and starts its record; a disable
clears both; every other change of the cadence records leaves which are DISABLED. -/
theorem sourcesCoherenceKept : Obligations.SourcesCoherenceKept := fun _ _ coherent taken =>
  invariant_step keepsSources coherent taken

end Sys2Proof.BlockInvariants

/-! PROOFS of O53: the Fill Engine's lists, channels and counts stay in agreement. -/

namespace Sys2Proof.Fills

open Sys2Proof Sys2Proof.Machine Sys2Proof.Steps Sys2Proof.BlockInvariants

/-! ## The counts -/

/-- How many of these entries name a window as their cause. -/
def causeCount (es : List ResolveEntry) (w : WindowId) : Nat := es.countP fun e => e.cause == some w

theorem causeCount_cons (e : ResolveEntry) (es : List ResolveEntry) (w : WindowId) :
    causeCount (e :: es) w = (if e.cause = some w then 1 else 0) + causeCount es w := by
  simp only [causeCount, List.countP_cons, beq_iff_eq]
  exact Nat.add_comm _ _

theorem causeCount_append (es fs : List ResolveEntry) (w : WindowId) :
    causeCount (es ++ fs) w = causeCount es w + causeCount fs w := List.countP_append

theorem fillCount_setCount (w v : WindowId) (n : Nat) (s : State) :
    (setCount w n s).fillCount[v] = if w = v then n else s.fillCount[v] := by
  show (put s.fillCount w n)[v] = _
  by_cases here : w = v
  · subst here
    rw [put_self, if_pos rfl]
  · rw [put_of_ne _ _ _ _ here, if_neg here]

theorem lowerCause_count (e : ResolveEntry) (s : State) (w : WindowId) :
    (lowerCause e s).fillCount[w] = if e.cause = some w then s.fillCount[w] - 1 else s.fillCount[w] := by
  unfold lowerCause
  split
  · next none => simp [none]
  · next v named =>
    rw [fillCount_setCount, named]
    by_cases here : v = w
    · subst here
      rw [if_pos rfl, if_pos rfl]
    · rw [if_neg here, if_neg fun same => here (Option.some.inj same)]

theorem lowerCauses_count (es : List ResolveEntry) (s : State) (w : WindowId) :
    (lowerCauses es s).fillCount[w] = s.fillCount[w] - causeCount es w := by
  induction es generalizing s with
  | nil => rfl
  | cons e es ih =>
    rw [causeCount_cons]
    refine (ih (lowerCause e s)).trans ?_
    rw [lowerCause_count]
    split <;> omega

/-- A RESOLVE entry joins: its cause's count rises by 1 (R63). -/
def raiseCause (s : State) (e : ResolveEntry) : State :=
  match e.cause with
  | none => s
  | some w => setCount w (s.fillCount[w] + 1) s

theorem raiseCauses_count (es : List ResolveEntry) (s : State) (w : WindowId) :
    (es.foldl raiseCause s).fillCount[w] = s.fillCount[w] + causeCount es w := by
  induction es generalizing s with
  | nil => rfl
  | cons e es ih =>
    have raised : (raiseCause s e).fillCount[w] = s.fillCount[w] + if e.cause = some w then 1 else 0 := by
      unfold raiseCause
      split
      · next none => simp [none]
      · next v named =>
        rw [fillCount_setCount, named]
        by_cases here : v = w
        · subst here
          rw [if_pos rfl, if_pos rfl]
        · rw [if_neg here, if_neg fun same => here (Option.some.inj same), Nat.add_zero]
    rw [causeCount_cons, List.foldl_cons, ih, raised]
    omega

/-! ## Channels and lists after each operation -/

/-- From `s` to `t` the lists and channels stay. -/
structure ListsStay (s t : State) : Prop where
  exposure : t.exposure = s.exposure
  marking : t.marking = s.marking
  channel0 : t.channel0 = s.channel0
  channel1 : t.channel1 = s.channel1

theorem ListsStay.refl (s : State) : ListsStay s s := ⟨rfl, rfl, rfl, rfl⟩

theorem ListsStay.trans {s t u : State} (h : ListsStay s t) (k : ListsStay t u) : ListsStay s u :=
  ⟨k.exposure.trans h.exposure, k.marking.trans h.marking, k.channel0.trans h.channel0, k.channel1.trans h.channel1⟩

theorem lowerCause_stays (e : ResolveEntry) (s : State) : ListsStay s (lowerCause e s) := by
  unfold lowerCause
  split <;> exact ⟨rfl, rfl, rfl, rfl⟩

theorem lowerCauses_stays (es : List ResolveEntry) (s : State) : ListsStay s (lowerCauses es s) :=
  foldl_keeps ListsStay.refl ListsStay.trans _ (fun s e => lowerCause_stays e s) es s

theorem raiseCauses_stays (es : List ResolveEntry) (s : State) : ListsStay s (es.foldl raiseCause s) :=
  foldl_keeps ListsStay.refl ListsStay.trans _ (fun s e => by unfold raiseCause; split <;> exact ⟨rfl, rfl, rfl, rfl⟩) es s

theorem ListsStay.getChannel {s t : State} (h : ListsStay s t) (c : ChannelId) :
    Machine.getChannel c t = Machine.getChannel c s := by
  cases c
  · exact h.channel0
  · exact h.channel1

theorem ListsStay.listLength {s t : State} (h : ListsStay s t) (c : ChannelId) :
    Machine.listLength c t = Machine.listLength c s := by
  cases c
  · exact congrArg List.length h.exposure
  · exact congrArg List.length h.marking

theorem getChannel_setChannel (c : ChannelId) (ch : Channel) (s : State) : getChannel c (setChannel c ch s) = ch := by
  cases c <;> rfl

theorem getChannel_setChannel_other (c : ChannelId) (ch : Channel) (s : State) :
    getChannel (otherChannel c) (setChannel c ch s) = getChannel (otherChannel c) s := by
  cases c <;> rfl

theorem getChannel_setOther (c : ChannelId) (ch : Channel) (s : State) :
    getChannel c (setChannel (otherChannel c) ch s) = getChannel c s := by
  cases c <;> rfl

theorem forall_channel {P : ChannelId → Prop} (c : ChannelId) (own : P c) (other : P (otherChannel c)) : ∀ d, P d := by
  intro d
  cases c <;> cases d <;> assumption

/-- From `s` to `t` only channels, the Poster and what no invariant reads may change; the lists and counts stay. -/
structure ChannelsOnly (s t : State) : Prop where
  exposure : t.exposure = s.exposure
  marking : t.marking = s.marking
  fillCount : t.fillCount = s.fillCount

theorem ChannelsOnly.trans {s t u : State} (h : ChannelsOnly s t) (k : ChannelsOnly t u) : ChannelsOnly s u :=
  ⟨k.exposure.trans h.exposure, k.marking.trans h.marking, k.fillCount.trans h.fillCount⟩

theorem ChannelsOnly.listLength {s t : State} (h : ChannelsOnly s t) (c : ChannelId) :
    Machine.listLength c t = Machine.listLength c s := by
  cases c
  · exact congrArg List.length h.exposure
  · exact congrArg List.length h.marking

theorem setChannel_channels (c : ChannelId) (ch : Channel) (s : State) : ChannelsOnly s (setChannel c ch s) :=
  ⟨rfl, rfl, rfl⟩

theorem entryJoined_channels (c : ChannelId) (s : State) : ChannelsOnly s (entryJoined c s) := by
  unfold entryJoined moveChannel
  split
  · split <;> exact ⟨rfl, rfl, rfl⟩
  · exact ⟨rfl, rfl, rfl⟩

theorem entryEnded_channels (c : ChannelId) (s : State) : ChannelsOnly s (entryEnded c s) := by
  unfold entryEnded moveChannel
  split
  · exact ⟨rfl, rfl, rfl⟩
  · split <;> exact ⟨rfl, rfl, rfl⟩

theorem emptiedByDiscards_channels (c : ChannelId) (s : State) : ChannelsOnly s (emptiedByDiscards c s) := by
  unfold emptiedByDiscards moveChannel
  dsimp only
  split <;> exact ⟨rfl, rfl, rfl⟩

/-! ## The agreement of the channels -/

/-- What a channel and the other one are to each other, the channel's list having this length. -/
structure InTurn (own other : Channel) (length : Nat) : Prop where
  idle : own.state = .idle ↔ length = 0
  oneActive : ¬ (own.state = .active ∧ other.state = .active)
  pending : own.state = .pending → other.state = .active
  current : own.current = true → own.state = .active

/-- Both channels stand in turn. -/
def TakeTurns (s : State) : Prop :=
  ∀ c, InTurn (getChannel c s) (getChannel (otherChannel c) s) (listLength c s)

/-- The lists keep their limits, and the counts are those of the list. -/
structure ListsAgree (s : State) : Prop where
  exposure : s.exposure.length ≤ Config.exposureCapacity
  marking : s.marking.length ≤ Config.markingCapacity
  counts : ∀ w : WindowId, s.fillCount[w] = causeCount s.exposure w
  limit : ∀ w : WindowId, causeCount s.exposure w ≤ Config.fillCountLimit

theorem fillCoherent_iff (s : State) : FillCoherent s ↔ ListsAgree s ∧ TakeTurns s where
  mp h := by
    refine ⟨⟨h.exposure, h.marking, fun w => (h.counts w).1, fun w => Nat.le_trans (Nat.le_of_eq (h.counts w).1.symm) (h.counts w).2⟩, fun c => ?_⟩
    refine ⟨h.idle c, ?_, h.pending c, h.current c⟩
    cases c
    · exact h.oneActive
    · exact fun both => h.oneActive both.symm
  mpr := fun ⟨lists, turns⟩ =>
    { exposure := lists.exposure
      marking := lists.marking
      counts := fun w => ⟨lists.counts w, lists.counts w ▸ lists.limit w⟩
      idle := fun c => (turns c).idle
      oneActive := (turns .zero).oneActive
      pending := fun c => (turns c).pending
      current := fun c => (turns c).current }

/-- The states of the channels, and whether the lists are empty, alone matter. -/
theorem TakeTurns.congr {s t : State} (turns : TakeTurns s)
    (state : ∀ c, (getChannel c t).state = (getChannel c s).state)
    (current : ∀ c, (getChannel c t).current = true → (getChannel c s).current = true)
    (empty : ∀ c, listLength c t = 0 ↔ listLength c s = 0) : TakeTurns t := fun c => by
  have own := turns c
  refine ⟨?_, ?_, ?_, fun now => ?_⟩ <;> rw [state]
  · exact own.idle.trans (empty c).symm
  · rw [state]
    exact own.oneActive
  · rw [state]
    exact own.pending
  · exact own.current (current c now)

theorem TakeTurns.of_channels {s t : State} (turns : TakeTurns s) (channels : ∀ c, getChannel c t = getChannel c s)
    (empty : ∀ c, listLength c t = 0 ↔ listLength c s = 0) : TakeTurns t :=
  turns.congr (fun c => by rw [channels]) (fun c => by rw [channels]; exact id) empty

/-- Two channels in turn, from the point of view of either. -/
theorem takeTurns_of {s : State} (c : ChannelId) (own other : Channel) (n m : Nat) (hown : getChannel c s = own)
    (hother : getChannel (otherChannel c) s = other) (hn : listLength c s = n) (hm : listLength (otherChannel c) s = m)
    (here : InTurn own other n) (there : InTurn other own m) : TakeTurns s := by
  refine forall_channel c ?_ ?_
  · rw [hown, hother, hn]
    exact here
  · have back : otherChannel (otherChannel c) = c := by cases c <;> rfl
    rw [back, hown, hother, hm]
    exact there

/-- Entries have joined the list of a channel: it is in turn again once an IDLE channel has been moved (R125). -/
theorem TakeTurns.entryJoined {s t : State} (turns : TakeTurns s) (c : ChannelId)
    (channels : ∀ d, getChannel d t = getChannel d s) (joined : listLength c t ≠ 0)
    (apart : listLength (otherChannel c) t = listLength (otherChannel c) s) : TakeTurns (entryJoined c t) := by
  have own := turns c
  have other := turns (otherChannel c)
  have back : otherChannel (otherChannel c) = c := by cases c <;> rfl
  rw [back] at other
  unfold Machine.entryJoined moveChannel
  rw [channels, channels]
  split
  · next idle =>
    split
    · next active =>
      refine takeTurns_of c { getChannel c s with state := .pending } (getChannel (otherChannel c) s) _ _
        (getChannel_setChannel c _ t) ((getChannel_setChannel_other c _ t).trans (channels _))
        ((setChannel_channels c _ t).listLength c) (((setChannel_channels c _ t).listLength _).trans apart) ?_ ?_
      · exact ⟨by simp [joined], by simp, fun _ => active, fun now => by simp [own.current now] at idle⟩
      · exact ⟨other.idle, by simp, fun h => by simp [active] at h, other.current⟩
    · next notActive =>
      refine takeTurns_of c { getChannel c s with state := .active } (getChannel (otherChannel c) s) _ _
        (getChannel_setChannel c _ t) ((getChannel_setChannel_other c _ t).trans (channels _))
        ((setChannel_channels c _ t).listLength c) (((setChannel_channels c _ t).listLength _).trans apart) ?_ ?_
      · exact ⟨by simp [joined], by simp [notActive], by simp, fun _ => rfl⟩
      · exact ⟨other.idle, by simp [notActive], fun _ => rfl, other.current⟩
  · next busy =>
    refine takeTurns_of c (getChannel c s) (getChannel (otherChannel c) s) _ _ (channels c) (channels _) rfl apart ?_ other
    exact ⟨by simp [joined, busy], own.oneActive, own.pending, own.current⟩

/-- The ACTIVE channel's current entry has ended and left its list (R125). -/
theorem TakeTurns.entryEnded {s t : State} (turns : TakeTurns s) (c : ChannelId)
    (active : (getChannel c s).state = .active) (stays : (getChannel c t).state = .active)
    (ended : (getChannel c t).current = false)
    (channel : getChannel (otherChannel c) t = getChannel (otherChannel c) s)
    (apart : listLength (otherChannel c) t = listLength (otherChannel c) s) : TakeTurns (entryEnded c t) := by
  have own := turns c
  have other := turns (otherChannel c)
  have back : otherChannel (otherChannel c) = c := by cases c <;> rfl
  rw [back] at other
  have notActive : (getChannel (otherChannel c) s).state ≠ .active := fun both => own.oneActive ⟨active, both⟩
  have resting : (getChannel (otherChannel c) s).current ≠ true := fun now => notActive (other.current now)
  unfold Machine.entryEnded moveChannel
  rw [channel]
  split
  · next pending =>
    have filled : listLength (otherChannel c) s ≠ 0 := fun empty => by
      simp [other.idle.2 empty] at pending
    refine takeTurns_of c { getChannel c t with state := if listLength c t = 0 then .idle else .pending }
      { getChannel (otherChannel c) s with state := .active } (listLength c t) (listLength (otherChannel c) s)
      ((getChannel_setOther c _ _).trans (getChannel_setChannel c _ _)) ?_ rfl apart ?_ ?_
    · rw [getChannel_setChannel, getChannel_setChannel_other, channel]
    · refine ⟨?_, ?_, fun _ => rfl, fun now => by simp [ended] at now⟩ <;> split <;> simp_all
    · refine ⟨by simp [filled], ?_, by simp, fun _ => rfl⟩
      split <;> simp
  · next notPending =>
    have idle : (getChannel (otherChannel c) s).state = .idle := by
      cases state : (getChannel (otherChannel c) s).state <;> simp_all
    split
    · next empty =>
      refine takeTurns_of c { getChannel c t with state := .idle } (getChannel (otherChannel c) s) (listLength c t)
        (listLength (otherChannel c) s) (getChannel_setChannel c _ _)
        ((getChannel_setChannel_other c _ t).trans channel) rfl apart ?_ ?_
      · exact ⟨by simp [empty], by simp, by simp, fun now => by simp [ended] at now⟩
      · exact ⟨other.idle, by simp, fun h => absurd h notPending, fun now => absurd now resting⟩
    · next filled =>
      refine takeTurns_of c (getChannel c t) (getChannel (otherChannel c) s) _ _ rfl channel rfl apart ?_ ?_
      · exact ⟨by simp [filled, stays], by simp [idle], by simp [stays], fun now => by simp [ended] at now⟩
      · exact ⟨other.idle, by simp [idle], fun _ => stays, other.current⟩

/-- The ACTIVE channel's list has emptied by discards (R125). -/
theorem TakeTurns.emptiedByDiscards {s t : State} (turns : TakeTurns s) (c : ChannelId)
    (active : (getChannel c s).state = .active) (notCurrent : (getChannel c s).current = false)
    (channels : ∀ d, getChannel d t = getChannel d s) (empty : listLength c t = 0)
    (apart : listLength (otherChannel c) t = listLength (otherChannel c) s) :
    TakeTurns (emptiedByDiscards c t) := by
  have emptied : Machine.emptiedByDiscards c t = Machine.entryEnded c t := by
    unfold Machine.emptiedByDiscards Machine.entryEnded moveChannel
    dsimp only
    simp only [getChannel_setChannel_other, empty, if_true]
  rw [emptied]
  exact turns.entryEnded c active (channels c ▸ active) (channels c ▸ notCurrent) (channels _) apart

/-! ## The operations -/

/-- The Fill Engine stays in agreement. -/
def KeepsFills (s t : State) : Prop := FillCoherent s → FillCoherent t

theorem KeepsFills.of_same {s t : State} (fillCount : t.fillCount = s.fillCount) (exposure : t.exposure = s.exposure)
    (marking : t.marking = s.marking) (channel0 : t.channel0 = s.channel0) (channel1 : t.channel1 = s.channel1) :
    KeepsFills s t := by
  intro coherent
  obtain ⟨lists, turns⟩ := (fillCoherent_iff s).1 coherent
  have stay : ListsStay s t := ⟨exposure, marking, channel0, channel1⟩
  refine (fillCoherent_iff t).2 ⟨?_, turns.of_channels stay.getChannel fun c => by rw [stay.listLength]⟩
  constructor <;> simp only [exposure, marking, fillCount]
  · exact lists.exposure
  · exact lists.marking
  · exact lists.counts
  · exact lists.limit

/-- The lists after entries have left them: the counts fell with the RESOLVE entries. -/
theorem ListsAgree.fewer {s t : State} (lists : ListsAgree s) (exposure : t.exposure.length ≤ s.exposure.length)
    (marking : t.marking.length ≤ s.marking.length) (gone : WindowId → Nat)
    (left : ∀ w, causeCount s.exposure w = gone w + causeCount t.exposure w)
    (counts : ∀ w : WindowId, t.fillCount[w] = s.fillCount[w] - gone w) : ListsAgree t where
  exposure := Nat.le_trans exposure lists.exposure
  marking := Nat.le_trans marking lists.marking
  counts w := by
    rw [counts w, lists.counts w, left w]
    omega
  limit w := Nat.le_trans (by rw [left w]; omega) (lists.limit w)

theorem ListsAgree.unchanged {s t : State} (lists : ListsAgree s) (same : ChannelsOnly s t) : ListsAgree t := by
  constructor <;> simp only [same.exposure, same.marking, same.fillCount]
  · exact lists.exposure
  · exact lists.marking
  · exact lists.counts
  · exact lists.limit

/-! ### Entries join -/

theorem joinExposure_eq (es : List ResolveEntry) (s : State) :
    joinExposure es s = if es = [] then s else
      entryJoined .zero (es.foldl raiseCause { s with exposure := s.exposure ++ es }) := by
  cases es with
  | nil => rfl
  | cons e es => rw [if_neg (List.cons_ne_nil e es)]; rfl

theorem joinExposure_lists {es : List ResolveEntry} {s : State} (lists : ListsAgree s)
    (room : s.exposure.length + es.length ≤ Config.exposureCapacity)
    (limit : ∀ w, causeCount s.exposure w + causeCount es w ≤ Config.fillCountLimit) :
    ListsAgree (joinExposure es s) := by
  rw [joinExposure_eq]
  split
  · exact lists
  · have raised := raiseCauses_stays es { s with exposure := s.exposure ++ es }
    refine ListsAgree.unchanged ?_ (entryJoined_channels .zero _)
    constructor <;> simp only [raised.exposure, raised.marking, List.length_append, causeCount_append]
    · exact room
    · exact lists.marking
    · intro w
      rw [raiseCauses_count, ← lists.counts w]
    · exact limit

theorem joinExposure_turns {es : List ResolveEntry} {s t : State} (turns : TakeTurns s) (some_ : es ≠ [])
    (channels : ∀ d, getChannel d t = getChannel d s) (marking : t.marking = s.marking) :
    TakeTurns (joinExposure es t) := by
  rw [joinExposure_eq, if_neg some_]
  have raised := raiseCauses_stays es { t with exposure := t.exposure ++ es }
  have before : ∀ d, getChannel d { t with exposure := t.exposure ++ es } = getChannel d t := fun d => by
    cases d <;> rfl
  refine turns.entryJoined .zero (fun d => ((raised.getChannel d).trans (before d)).trans (channels d)) ?_ ?_
  · rw [raised.listLength]
    simp [listLength, some_]
  · rw [raised.listLength]
    exact congrArg List.length marking

theorem joinMarking_fills (es : List BorderEntry) (s : State)
    (room : es.length ≤ Config.markingCapacity - s.marking.length) : KeepsFills s (joinMarking es s) := by
  intro coherent
  obtain ⟨lists, turns⟩ := (fillCoherent_iff s).1 coherent
  cases es with
  | nil => exact coherent
  | cons e es =>
    refine (fillCoherent_iff _).2 ⟨ListsAgree.unchanged (s := { s with marking := s.marking ++ e :: es }) ?_
      (entryJoined_channels .one _), ?_⟩
    · refine ⟨lists.exposure, ?_, lists.counts, lists.limit⟩
      have within := lists.marking
      simp only [List.length_append]
      omega
    · exact turns.entryJoined (t := { s with marking := s.marking ++ e :: es }) .one
        (fun d => by cases d <;> rfl) (by simp [listLength]) rfl

theorem entriesFit_iff (s : State) (es : List ResolveEntry) : entriesFit s es = true ↔
    s.exposure.length + es.length ≤ Config.exposureCapacity
      ∧ ∀ w : WindowId, causeCount es w = 0 ∨ s.fillCount[w] + causeCount es w ≤ Config.fillCountLimit := by
  simp [entriesFit, causeCount]

/-! ### A switch -/

theorem waiting_split (s : State) :
    (if s.channel0.current then s.exposure.take 1 else []) ++ waitingExposure s = s.exposure := by
  unfold waitingExposure
  split
  · rw [← List.drop_one, List.take_append_drop]
  · rfl

theorem keptExposure_length (p : PanelId) (s : State) : (keptExposure p s).length ≤ s.exposure.length := by
  have whole := congrArg List.length (waiting_split s)
  have fewer := List.length_filter_le (fun e : ResolveEntry => !(e.panel == p)) (waitingExposure s)
  simp only [keptExposure, List.length_append] at whole ⊢
  omega

theorem keptExposure_count (p : PanelId) (s : State) (w : WindowId) :
    causeCount s.exposure w
      = causeCount ((waitingExposure s).filter fun e => e.panel == p) w + causeCount (keptExposure p s) w := by
  have whole := congrArg (causeCount · w) (waiting_split s)
  have parted := List.countP_eq_countP_filter_add (waitingExposure s) (fun e => e.cause == some w) (fun e => e.panel == p)
  simp only [causeCount_append, keptExposure] at whole ⊢
  simp only [causeCount] at whole ⊢
  omega

theorem withdrawPanel_stays (p : PanelId) (s : State) : ListsStay { s with exposure := keptExposure p s } (withdrawPanel p s) :=
  lowerCauses_stays _ _

theorem withdrawPanel_lists {s : State} (p : PanelId) (lists : ListsAgree s) : ListsAgree (withdrawPanel p s) := by
  have stay := withdrawPanel_stays p s
  refine lists.fewer (gone := causeCount ((waitingExposure s).filter fun e => e.panel == p)) ?_ ?_ ?_ ?_
  · rw [stay.exposure]
    exact keptExposure_length p s
  · exact Nat.le_of_eq (congrArg List.length stay.marking)
  · intro w
    rw [stay.exposure]
    exact keptExposure_count p s w
  · exact lowerCauses_count _ { s with exposure := keptExposure p s }

theorem withdrawPanel_channels (p : PanelId) (s : State) (c : ChannelId) :
    getChannel c (withdrawPanel p s) = getChannel c s :=
  ((withdrawPanel_stays p s).getChannel c).trans (by cases c <;> rfl)

theorem fillAtSwitch_fills (p : PanelId) (l : Layout) (s : State) : KeepsFills s (fillAtSwitch p l s) := by
  intro coherent
  obtain ⟨lists, turns⟩ := (fillCoherent_iff s).1 coherent
  unfold fillAtSwitch
  dsimp only
  split
  · next fits =>
    obtain ⟨room, limit⟩ := (entriesFit_iff s _).1 fits
    refine (fillCoherent_iff _).2 ⟨joinExposure_lists lists room fun w => ?_, ?_⟩
    · have under := lists.limit w
      have counted := lists.counts w
      cases limit w <;> omega
    · by_cases none : resolveEntries s l p = []
      · rw [none]
        exact turns
      · exact joinExposure_turns turns none (fun _ => rfl) rfl
  · have withdrawn := withdrawPanel_lists p lists
    rw [wholePanelFallback_eq]
    split
    · next room =>
      refine KeepsFills.of_same (s := joinExposure [wholePanelEntry p l.epoch s] (withdrawPanel p s)) rfl rfl rfl rfl rfl
        ((fillCoherent_iff _).2 ⟨joinExposure_lists withdrawn room fun w => ?_, ?_⟩)
      · have nameless : causeCount [wholePanelEntry p l.epoch s] w = 0 := by simp [causeCount, wholePanelEntry]
        rw [nameless]
        exact withdrawn.limit w
      · exact joinExposure_turns turns (List.cons_ne_nil _ _) (withdrawPanel_channels p s)
          (withdrawPanel_stays p s).marking
    · next full =>
      refine KeepsFills.of_same (s := withdrawPanel p s) rfl rfl rfl rfl rfl ((fillCoherent_iff _).2 ⟨withdrawn, ?_⟩)
      have stay := withdrawPanel_stays p s
      refine turns.of_channels (withdrawPanel_channels p s) fun c => ?_
      cases c with
      | zero =>
        have kept := keptExposure_length p s
        have many : Config.exposureCapacity = 128 := rfl
        simp only [listLength, stay.exposure] at full ⊢
        omega
      | one => simp only [listLength, stay.marking]

/-! ### Entries leave -/

theorem dropHead_lists {s : State} (c : ChannelId) (lists : ListsAgree s) : ListsAgree (dropHead c s) := by
  cases c with
  | zero =>
    unfold dropHead
    dsimp only
    split
    · exact lists
    · next e rest head =>
      have stay := lowerCause_stays e { s with exposure := rest }
      refine lists.fewer (gone := fun w => if e.cause = some w then 1 else 0) ?_ ?_ ?_ ?_
      · rw [stay.exposure, head]
        exact Nat.le_succ _
      · exact Nat.le_of_eq (congrArg List.length stay.marking)
      · intro w
        rw [stay.exposure, head, causeCount_cons]
      · intro w
        rw [lowerCause_count]
        show (if _ then s.fillCount[w] - 1 else s.fillCount[w]) = _
        split <;> rfl
  | one =>
    refine lists.fewer (t := { s with marking := s.marking.tail }) (gone := fun _ => 0) (Nat.le_refl _) ?_
      (fun _ => (Nat.zero_add _).symm) (fun _ => rfl)
    simp

theorem dropHead_channels (c d : ChannelId) (s : State) : getChannel d (dropHead c s) = getChannel d s := by
  cases c with
  | zero =>
    unfold dropHead
    dsimp only
    split
    · rfl
    · next e rest _ =>
      exact ((lowerCause_stays e { s with exposure := rest }).getChannel d).trans (by cases d <;> rfl)
  | one => cases d <;> rfl

theorem dropHead_other (c : ChannelId) (s : State) :
    listLength (otherChannel c) (dropHead c s) = listLength (otherChannel c) s := by
  cases c with
  | zero =>
    unfold dropHead
    dsimp only
    split
    · rfl
    · next e rest _ => exact (lowerCause_stays e { s with exposure := rest }).listLength .one
  | one => rfl

theorem endCurrent_fills (c : ChannelId) (o : LastOutcome) (s : State) (current : (getChannel c s).current = true) :
    KeepsFills s (endCurrent c o s) := by
  intro coherent
  obtain ⟨lists, turns⟩ := (fillCoherent_iff s).1 coherent
  have active := (turns c).current current
  refine (fillCoherent_iff _).2 ⟨((dropHead_lists c lists).unchanged (setChannel_channels c _ _)).unchanged
    (entryEnded_channels c _), ?_⟩
  refine turns.entryEnded c active ?_ ?_ ?_ ?_
  · rw [getChannel_setChannel, dropHead_channels]
    exact active
  · rw [getChannel_setChannel]
  · rw [getChannel_setChannel_other, dropHead_channels]
  · rw [(setChannel_channels c _ _).listLength, dropHead_other]

/-- A channel's record changes beside its state and whether an entry is current. -/
theorem setChannel_fills (c : ChannelId) (ch : Channel) (s : State) (state : ch.state = (getChannel c s).state)
    (current : ch.current = (getChannel c s).current) : KeepsFills s (setChannel c ch s) := by
  intro coherent
  obtain ⟨lists, turns⟩ := (fillCoherent_iff s).1 coherent
  have only := setChannel_channels c ch s
  refine (fillCoherent_iff _).2 ⟨lists.unchanged only, turns.congr ?_ ?_ fun d => by rw [only.listLength]⟩
  · exact forall_channel c (by rw [getChannel_setChannel, state]) (by rw [getChannel_setChannel_other])
  · exact forall_channel c (by rw [getChannel_setChannel, current]; exact id)
      (by rw [getChannel_setChannel_other]; exact id)

theorem setRowsDone_channels (c d : ChannelId) (n : Nat) (s : State) :
    getChannel d (setRowsDone c n s) = getChannel d s := by
  cases c <;> unfold setRowsDone <;> dsimp only <;> split <;> rfl

theorem setRowsDone_fills (c : ChannelId) (n : Nat) (s : State) : KeepsFills s (setRowsDone c n s) := by
  intro coherent
  obtain ⟨lists, turns⟩ := (fillCoherent_iff s).1 coherent
  cases c with
  | zero =>
    unfold setRowsDone
    dsimp only
    split
    · exact coherent
    · next e rest head =>
      have causes : ∀ w, causeCount ({ e with rowsDone := n } :: rest) w = causeCount s.exposure w := fun w => by
        rw [head, causeCount_cons, causeCount_cons]
      have length : ({ e with rowsDone := n } :: rest).length = s.exposure.length := by rw [head]; rfl
      refine (fillCoherent_iff _).2 ⟨⟨?_, lists.marking, fun w => ?_, fun w => ?_⟩,
        turns.of_channels (fun d => by cases d <;> rfl) fun d => ?_⟩
      · rw [length]
        exact lists.exposure
      · exact (lists.counts w).trans (causes w).symm
      · rw [causes]
        exact lists.limit w
      · cases d
        · simp only [listLength, length]
        · exact Iff.rfl
  | one =>
    unfold setRowsDone
    dsimp only
    split
    · exact coherent
    · next e rest head =>
      have length : ({ e with rowsDone := n } :: rest).length = s.marking.length := by rw [head]; rfl
      refine (fillCoherent_iff _).2 ⟨⟨lists.exposure, ?_, lists.counts, lists.limit⟩,
        turns.of_channels (fun d => by cases d <;> rfl) fun d => ?_⟩
      · rw [length]
        exact lists.marking
      · cases d
        · exact Iff.rfl
        · simp only [listLength, length]

theorem KeepsFills.trans {s t u : State} (h : KeepsFills s t) (k : KeepsFills t u) : KeepsFills s u :=
  fun coherent => k (h coherent)

theorem beginRow_fills (c : ChannelId) (n : Nat) (s : State) : KeepsFills s (beginRow c n s) :=
  (setRowsDone_fills c _ s).trans (setChannel_fills c _ _ rfl rfl)

theorem fillIssued_fills (c : ChannelId) (s : State) : KeepsFills s (fillIssued c s) := by
  have issued : KeepsFills s (setChannel c { getChannel c s with
      outstanding := (getChannel c s).outstanding + 1, row := (getChannel c s).row.tail } s) :=
    setChannel_fills c _ s rfl rfl
  unfold fillIssued
  exact ite_keeps (issued.trans (beginRow_fills c _ _)) issued

/-! ### An entry starts -/

/-- The heads of the Exposure Fill List that are superseded leave it, each lowering its cause's count. -/
theorem discardExposure_spec (l : List ResolveEntry) (s : State) :
    (discardExposure l s).exposure = l.dropWhile (fun e => !resolvePasses s e)
      ∧ ListsStay { s with exposure := (discardExposure l s).exposure } (discardExposure l s)
      ∧ ∀ w : WindowId, (discardExposure l s).fillCount[w]
          = s.fillCount[w] - causeCount (l.takeWhile fun e => !resolvePasses s e) w := by
  induction l generalizing s with
  | nil => exact ⟨rfl, .refl _, fun _ => rfl⟩
  | cons e rest ih =>
    unfold discardExposure
    split
    · next passes =>
      refine ⟨?_, .refl _, fun w => ?_⟩
      · rw [List.dropWhile_cons, passes]
        rfl
      · have none : (e :: rest).takeWhile (fun e => !resolvePasses s e) = [] := by
          rw [List.takeWhile_cons, passes]
          rfl
        exact congrArg (s.fillCount[w] - causeCount · w) none.symm
    · next fails =>
      have same : resolvePasses (lowerCause e { s with exposure := rest }) = resolvePasses s := by
        funext x
        unfold resolvePasses
        rw [(lowerCause_only e { s with exposure := rest }).panelEpoch]
      have lowered := lowerCause_stays e { s with exposure := rest }
      obtain ⟨exposure, stays, counts⟩ := ih (lowerCause e { s with exposure := rest })
      rw [same] at exposure
      refine ⟨?_, ⟨rfl, ?_, ?_, ?_⟩, fun w => ?_⟩
      · rw [exposure, List.dropWhile_cons]
        simp [fails]
      · exact stays.marking.trans lowered.marking
      · exact stays.channel0.trans lowered.channel0
      · exact stays.channel1.trans lowered.channel1
      · rw [counts w, lowerCause_count, same, List.takeWhile_cons]
        simp only [fails, Bool.not_false, if_true, causeCount_cons]
        show (if e.cause = some w then s.fillCount[w] - 1 else s.fillCount[w]) - _ = _
        split
        · exact Nat.sub_sub _ _ _
        · rw [Nat.zero_add]

theorem discardHeads_lists {s : State} (c : ChannelId) (lists : ListsAgree s) : ListsAgree (discardHeads c s) := by
  cases c with
  | zero =>
    obtain ⟨exposure, stays, counts⟩ := discardExposure_spec s.exposure s
    have parted := List.takeWhile_append_dropWhile (p := fun e => !resolvePasses s e) (l := s.exposure)
    refine lists.fewer (t := discardExposure s.exposure s) ?_ ?_ _ (fun w => ?_) counts
    · rw [exposure]
      have := congrArg List.length parted
      rw [List.length_append] at this
      omega
    · exact Nat.le_of_eq (congrArg List.length stays.marking)
    · rw [exposure, ← causeCount_append, parted]
  | one =>
    have shorter := (List.dropWhile_sublist (fun e => !borderPasses s e) (l := s.marking)).length_le
    unfold discardHeads
    dsimp only
    split
    · exact lists.fewer (gone := fun _ => 0) (Nat.le_refl _) (Nat.zero_le _) (fun _ => (Nat.zero_add _).symm) fun _ => rfl
    · next e rest left =>
      rw [left] at shorter
      exact lists.fewer (gone := fun _ => 0) (Nat.le_refl _) shorter (fun _ => (Nat.zero_add _).symm) fun _ => rfl

theorem discardHeads_channels (c d : ChannelId) (s : State) : getChannel d (discardHeads c s) = getChannel d s := by
  cases c with
  | zero =>
    exact ((discardExposure_spec s.exposure s).2.1.getChannel d).trans (by cases d <;> rfl)
  | one =>
    unfold discardHeads
    dsimp only
    split <;> cases d <;> rfl

theorem discardHeads_other (c : ChannelId) (s : State) :
    listLength (otherChannel c) (discardHeads c s) = listLength (otherChannel c) s := by
  cases c with
  | zero => exact (discardExposure_spec s.exposure s).2.1.listLength .one
  | one =>
    unfold discardHeads
    dsimp only
    split <;> rfl

theorem startEntry_fills (c : ChannelId) (s : State) (due : canStart c s = true) : KeepsFills s (startEntry c s) := by
  intro coherent
  obtain ⟨lists, turns⟩ := (fillCoherent_iff s).1 coherent
  simp only [canStart, Bool.and_eq_true, beq_iff_eq, Bool.not_eq_true', decide_eq_true_eq] at due
  obtain ⟨⟨⟨active, notCurrent⟩, _⟩, filled⟩ := due
  have discarded := discardHeads_lists c lists
  have channels := fun d => discardHeads_channels c d s
  unfold startEntry
  dsimp only
  split
  · next empty =>
    exact (fillCoherent_iff _).2 ⟨discarded.unchanged (emptiedByDiscards_channels c _),
      turns.emptiedByDiscards c active notCurrent channels empty (discardHeads_other c s)⟩
  · next left =>
    refine ((setRowsDone_fills c 0 _).trans (beginRow_fills c 0 _)) ((fillCoherent_iff _).2
      ⟨discarded.unchanged (setChannel_channels c _ _), ?_⟩)
    have own := turns c
    have other := turns (otherChannel c)
    have back : otherChannel (otherChannel c) = c := by cases c <;> rfl
    rw [back] at other
    refine takeTurns_of c { getChannel c s with current := true, row := [] } (getChannel (otherChannel c) s) _ _ ?_ ?_ rfl
      ?_ ?_ ⟨other.idle, other.oneActive, other.pending, other.current⟩
    · rw [getChannel_setChannel, channels]
    · rw [getChannel_setChannel_other, channels]
    · rw [(setChannel_channels c _ _).listLength, discardHeads_other]
    · refine ⟨?_, own.oneActive, own.pending, fun _ => active⟩
      rw [(setChannel_channels c _ _).listLength]
      simp [active, left]

/-! ### The lists are emptied -/

theorem takeTurns_idle {s : State} (idle : ∀ c, (getChannel c s).state = .idle) (resting : ∀ c, (getChannel c s).current = false)
    (empty : ∀ c, listLength c s = 0) : TakeTurns s := fun c => by
  refine ⟨?_, ?_, ?_, ?_⟩ <;> simp [idle, resting, empty]

theorem clearFills_fills (s : State) : KeepsFills s (clearFills s) := by
  intro coherent
  obtain ⟨lists, turns⟩ := (fillCoherent_iff s).1 coherent
  have stay := lowerCauses_stays s.exposure { s with exposure := [], marking := [] }
  have exposure : (clearFills s).exposure = [] := stay.exposure
  have marking : (clearFills s).marking = [] := stay.marking
  refine (fillCoherent_iff _).2 ⟨lists.fewer (gone := causeCount s.exposure) ?_ ?_ ?_ ?_, takeTurns_idle ?_ ?_ ?_⟩
  · rw [exposure]
    exact Nat.zero_le _
  · rw [marking]
    exact Nat.zero_le _
  · intro w
    rw [exposure]
    rfl
  · exact lowerCauses_count s.exposure { s with exposure := [], marking := [] }
  · intro c
    cases c <;> rfl
  · intro c
    cases c <;> rfl
  · intro c
    cases c
    · exact congrArg List.length exposure
    · exact congrArg List.length marking

theorem fillCoherent_empty {s : State} (exposure : s.exposure = []) (marking : s.marking = [])
    (counts : ∀ w : WindowId, s.fillCount[w] = 0) (idle : ∀ c, (getChannel c s).state = .idle)
    (resting : ∀ c, (getChannel c s).current = false) : FillCoherent s := by
  refine (fillCoherent_iff _).2 ⟨⟨?_, ?_, fun w => ?_, fun w => ?_⟩, takeTurns_idle idle resting fun c => ?_⟩
  · simp [exposure]
  · simp [marking]
  · rw [counts, exposure]
    rfl
  · rw [exposure]
    exact Nat.zero_le _
  · cases c <;> simp [listLength, exposure, marking]

theorem fillCoherent_powerOn (base : Byte) (prio : Initiator) : FillCoherent (State.powerOn base prio) :=
  fillCoherent_empty rfl rfl (fun w => by simp [State.powerOn]) (fun c => by cases c <;> rfl) (fun c => by cases c <;> rfl)

theorem KeepsFills.of_outside {s t : State} (h : OutsideQueue s t) : KeepsFills s t :=
  .of_same h.fillCount h.exposure h.marking h.channel0 h.channel1

theorem keepsFills : RespectedByPort KeepsFills where
  toRespected := RespectedByBlocks.toRespected {
    refl := fun _ h => h
    trans := KeepsFills.trans
    layouts := fun change => .of_same change.fillCount change.exposure change.marking change.channel0 change.channel1
    postEvent := fun _ _ => .of_same rfl rfl rfl rfl rfl
    postEnded := fun off s =>
      have only := postEnded_ringOnly off s
      .of_same only.fillCount only.exposure only.marking only.channel0 only.channel1
    consumerWritten := fun _ => .of_same rfl rfl rfl rfl rfl
    grantEvent := fun tag s =>
      have only := grantEvent_ringOnly tag s
      .of_same only.fillCount only.exposure only.marking only.channel0 only.channel1
    resetPoster := fun _ => .of_same rfl rfl rfl rfl rfl
    shadowPhase := fun _ _ => .of_same rfl rfl rfl rfl rfl
    cadence := fun _ _ _ => .of_same rfl rfl rfl rfl rfl
    awaiting := fun s =>
      foldl_keeps (R := KeepsFills) (fun _ h => h) KeepsFills.trans (fun s src => setCadence src (.zeroed .awaiting) s)
        (fun _ _ => .of_same rfl rfl rfl rfl rfl) _ s
    enable := fun _ _ _ => .of_same rfl rfl rfl rfl rfl
    disable := fun _ _ => .of_same rfl rfl rfl rfl rfl
    joinMarking := joinMarking_fills
    answered := fun c s => setChannel_fills c _ s rfl rfl
    endCurrent := endCurrent_fills
    startEntry := startEntry_fills
    fillIssued := fillIssued_fills
    clearFills := clearFills_fills
    purge := fun p epoch s => .of_outside (outside_of_walk (purge_only p epoch s))
    fillAtSwitch := fillAtSwitch_fills
    latchHolds := fun _ => .of_same rfl rfl rfl rfl rfl
    resetBlocks := fun s _ => fillCoherent_empty rfl rfl
      (fun w => Vector.getElem_replicate w.isLt) (fun c => by cases c <;> rfl) (fun c => by cases c <;> rfl)
    grantPass := fun s => .of_outside (grantPass_outside s)
    grantExpansion := fun tag s => .of_outside (grantExpansion_outside tag s) }
  enterPass t s := .of_outside (outside_of_walk (enterPass_only t s))
  expandNew t run s := .of_outside (expandNew_outside t run s)
  lines _ _ := .of_same rfl rfl rfl rfl rfl
  assertReset _ := .of_same rfl rfl rfl rfl rfl
  releaseReset base prio s _ :=
    KeepsFills.of_same (s := State.powerOn base prio) (t := releaseReset base prio s) rfl rfl rfl rfl rfl
      (fillCoherent_powerOn base prio)

/-- Settles O53: entries that join a list raise their causes' counts within the limits, entries that leave lower them, and
a channel becomes ACTIVE, PENDING or IDLE with its list and with the other channel. -/
theorem fillCoherenceKept : Obligations.FillCoherenceKept := fun _ _ coherent taken =>
  invariant_step keepsFills coherent taken

end Sys2Proof.Fills

/-! PROOFS of O52: the commit and the layouts stay in agreement. -/

namespace Sys2Proof.Commits

open Sys2Proof Sys2Proof.Machine Sys2Proof.Steps Sys2Proof.BlockInvariants

/-! ## What the invariant reads -/

/-- From `s` to `t` the commit, the layouts, the panels' use of them, the mode and the geometry stay. -/
structure CommitStays (s t : State) : Prop where
  mode : t.mode = s.mode
  geometry : t.geometry = s.geometry
  active : t.active = s.active
  next : t.next = s.next
  selection : t.selection = s.selection
  panelEpoch : t.panelEpoch = s.panelEpoch
  commit : t.commit = s.commit

theorem CommitStays.refl (s : State) : CommitStays s s := by constructor <;> rfl

theorem CommitStays.trans {s t u : State} (h : CommitStays s t) (k : CommitStays t u) : CommitStays s u where
  mode := k.mode.trans h.mode
  geometry := k.geometry.trans h.geometry
  active := k.active.trans h.active
  next := k.next.trans h.next
  selection := k.selection.trans h.selection
  panelEpoch := k.panelEpoch.trans h.panelEpoch
  commit := k.commit.trans h.commit

theorem stays_of_ring {s t : State} (h : RingOnly s t) : CommitStays s t :=
  ⟨h.mode, h.geometry, h.active, h.next, h.selection, h.panelEpoch, h.commit⟩

theorem stays_of_walk {s t : State} (h : WalkOnly s t) : CommitStays s t :=
  ⟨h.mode, h.geometry, h.active, h.next, h.selection, h.panelEpoch, h.commit⟩

theorem stays_of_fill {s t : State} (h : FillOnly s t) : CommitStays s t :=
  ⟨h.mode, h.geometry, h.active, h.next, h.selection, h.panelEpoch, h.commit⟩

/-- The commit and the layouts stay in agreement. -/
def KeepsCommit (s t : State) : Prop := CommitCoherent s → CommitCoherent t

theorem unswitched_congr {s t : State} (geometry : t.geometry = s.geometry) (switched : t.commit.switched = s.commit.switched) :
    unswitched t = unswitched s := by
  unfold unswitched
  rw [geometry, switched]

theorem KeepsCommit.of_stays {s t : State} (h : CommitStays s t) : KeepsCommit s t := fun coherent => by
  refine ⟨?_, ?_, ?_, ?_, ?_⟩
  · rw [h.next, h.commit]
    exact coherent.next
  · rw [h.commit, h.mode]
    exact coherent.running
  · rw [h.commit, unswitched_congr h.geometry (congrArg Commit.switched h.commit)]
    exact coherent.remaining
  · rw [h.selection, h.panelEpoch, h.next, h.active]
    exact coherent.panels
  · rw [h.geometry]
    exact coherent.grid

theorem KeepsCommit.trans {s t u : State} (h : KeepsCommit s t) (k : KeepsCommit t u) : KeepsCommit s u :=
  fun coherent => k (h coherent)

/-- With no commit in flight every panel uses ACTIVE. -/
theorem panels_active {s : State} (coherent : CommitCoherent s) (idle : s.commit.state ≠ .inFlight) (p : PanelId) :
    s.selection[p] = .active ∧ s.panelEpoch[p] = s.active.epoch := by
  obtain active | ⟨_, l, exists_, _⟩ := coherent.panels p
  · exact active
  · exact absurd (coherent.next.1 (by simp [exists_])) idle

theorem next_none {s : State} (coherent : CommitCoherent s) (idle : s.commit.state ≠ .inFlight) : s.next = none := by
  cases exists_ : s.next with
  | none => rfl
  | some l => exact absurd (coherent.next.1 (by simp [exists_])) idle

/-- With no commit in flight the agreement is this. -/
theorem commitCoherent_idle {s : State} (idle : s.commit.state ≠ .inFlight) (next : s.next = none)
    (panels : ∀ p : PanelId, s.selection[p] = .active ∧ s.panelEpoch[p] = s.active.epoch)
    (grid : 1 ≤ gridCount s.geometry ∧ gridCount s.geometry ≤ 32) : CommitCoherent s :=
  ⟨by simp [next, idle], fun flying => absurd flying idle, fun flying => absurd flying idle, fun p => .inl (panels p), grid⟩

/-! ## Counting the panels that have not switched -/

/-- A count falls by 1 where one element of the list ceases to count. -/
theorem countP_one_less {α : Type} {f g : α → Bool} {x : α} {l : List α} (once : l.Nodup) (mem : x ∈ l) (counted : f x = true)
    (not_now : g x = false) (elsewhere : ∀ y, y ≠ x → g y = f y) : l.countP f = l.countP g + 1 := by
  induction l with
  | nil => cases mem
  | cons y l ih =>
    obtain ⟨fresh, rest⟩ := List.nodup_cons.1 once
    rw [List.countP_cons, List.countP_cons]
    by_cases here : y = x
    · subst here
      have same : l.countP f = l.countP g := List.countP_congr fun z hz => by
        rw [elsewhere z fun e => fresh (e ▸ hz)]
      simp [counted, not_now, same]
    · have in_tail : x ∈ l := (List.mem_cons.1 mem).resolve_left (Ne.symm here)
      rw [ih rest in_tail, elsewhere y here]
      omega

theorem countP_lt_finRange {n m : Nat} (h : m ≤ n) : (List.finRange n).countP (fun p => decide (p.val < m)) = m := by
  induction n with
  | zero => simp [Nat.le_zero.1 h]
  | succ n ih =>
    have before : (List.finRange n).countP ((fun p : Fin (n + 1) => decide (p.val < m)) ∘ Fin.castSucc)
        = (List.finRange n).countP (fun p => decide (p.val < m)) := rfl
    rw [List.finRange_succ_last, List.countP_append, List.countP_map, before, List.countP_singleton]
    by_cases all : m = n + 1
    · subst all
      have every : (List.finRange n).countP (fun p => decide (p.val < n + 1)) = (List.finRange n).length :=
        List.countP_eq_length.2 fun p _ => decide_eq_true (Nat.lt_succ_of_lt p.isLt)
      rw [every, List.length_finRange]
      simp
    · have last : ¬ n < m := by omega
      rw [ih (by omega)]
      simp [last]

/-- A grid panel that switches is one less that has not. -/
theorem unswitched_switched {s t : State} {p : PanelId} (grid : isGrid s.geometry p = true)
    (due : s.commit.switched[p] = false) (geometry : t.geometry = s.geometry)
    (switched : t.commit.switched = put s.commit.switched p true) : unswitched s = unswitched t + 1 := by
  refine countP_one_less (List.nodup_finRange 32) (List.mem_finRange p) (by rw [grid, due]; rfl) ?_ fun q other => ?_
  · rw [switched, put_self]
    simp
  · rw [switched, geometry, put_of_ne _ _ _ _ (Ne.symm other)]

/-! ## A panel switches -/

/-- What a switch of a panel does to the commit, the layouts and the panels' use of them (R110). -/
structure PanelMoved (p : PanelId) (l : Layout) (s t : State) : Prop where
  mode : t.mode = s.mode
  geometry : t.geometry = s.geometry
  active : t.active = s.active
  next : t.next = s.next
  selection : t.selection = put s.selection p .next
  panelEpoch : t.panelEpoch = put s.panelEpoch p l.epoch
  commit : t.commit
    = { s.commit with switched := put s.commit.switched p true, remaining := s.commit.remaining - 1 }

theorem movePanel_moved (p : PanelId) (l : Layout) (s : State) : PanelMoved p l s (movePanel p l s) := by
  have blocks := (stays_of_walk (purge_only p l.epoch (setPanelLayout p .next l.epoch s))).trans
    (stays_of_fill (fillAtSwitch_only p l _))
  unfold movePanel
  dsimp only
  generalize fillAtSwitch p l (purge p l.epoch (setPanelLayout p .next l.epoch s)) = u at blocks ⊢
  refine ⟨blocks.mode, blocks.geometry, blocks.active, blocks.next, blocks.selection, blocks.panelEpoch, ?_⟩
  exact congrArg (fun c : Commit => { c with switched := put c.switched p true, remaining := c.remaining - 1 })
    blocks.commit

/-- What the end of a commit does to the commit, the layouts and the panels' use of them (R114). -/
structure CommitEnded (end_ : CommitState) (l : Layout) (s t : State) : Prop where
  mode : t.mode = s.mode
  geometry : t.geometry = s.geometry
  active : t.active = l
  next : t.next = none
  panels : ∀ p : PanelId, t.selection[p] = .active ∧ t.panelEpoch[p] = l.epoch
  commit : t.commit = { s.commit with
    state := end_, remaining := 0, switched := Vector.replicate 32 false, changed := Vector.replicate 64 false }

/-- Every panel listed uses this copy with this epoch, and the rest stays. -/
theorem setPanelLayouts_panel (copy : Copy) (epoch : Half) (l : List PanelId) (s : State) (p : PanelId) :
    let t := l.foldl (fun s p => setPanelLayout p copy epoch s) s
    (t.selection[p] = if p ∈ l then copy else s.selection[p])
      ∧ t.panelEpoch[p] = if p ∈ l then epoch else s.panelEpoch[p] := by
  induction l generalizing s with
  | nil => exact ⟨rfl, rfl⟩
  | cons q l ih =>
    obtain ⟨selection, panelEpoch⟩ := ih (setPanelLayout q copy epoch s)
    change _ = if p ∈ l then copy else (put s.selection q copy)[p] at selection
    change _ = if p ∈ l then epoch else (put s.panelEpoch q epoch)[p] at panelEpoch
    simp only [List.foldl_cons]
    rw [selection, panelEpoch]
    by_cases here : q = p
    · subst here
      rw [put_self, put_self]
      simp
    · rw [put_of_ne _ _ _ _ here, put_of_ne _ _ _ _ here]
      simp [Ne.symm here]

theorem setPanelLayouts_all (copy : Copy) (epoch : Half) (s : State) (p : PanelId) :
    let t := (List.finRange 32).foldl (fun s p => setPanelLayout p copy epoch s) s
    t.selection[p] = copy ∧ t.panelEpoch[p] = epoch := by
  have panel := setPanelLayouts_panel copy epoch (List.finRange 32) s p
  simpa using panel

/-- From `s` to `t` only the panels' use of the layouts changes, of what `CommitStays` names. -/
structure PanelsOnly (s t : State) : Prop where
  mode : t.mode = s.mode
  geometry : t.geometry = s.geometry
  active : t.active = s.active
  next : t.next = s.next
  commit : t.commit = s.commit

theorem setPanelLayouts_only (copy : Copy) (epoch : Half) (l : List PanelId) (s : State) :
    PanelsOnly s (l.foldl (fun s p => setPanelLayout p copy epoch s) s) :=
  foldl_keeps (R := PanelsOnly) (fun s => by constructor <;> rfl)
    (fun h k => ⟨k.mode.trans h.mode, k.geometry.trans h.geometry, k.active.trans h.active, k.next.trans h.next,
      k.commit.trans h.commit⟩)
    (fun s p => setPanelLayout p copy epoch s) (fun _ _ => by constructor <;> rfl) l s

theorem completeCommit_ended {end_ : CommitState} {outcome : CommandOutcome} {l : Layout} {s : State}
    (next : s.next = some l) : CommitEnded end_ l s (completeCommit end_ outcome s) := by
  unfold completeCommit
  split
  · next none => simp [next] at none
  · next l' exists_ =>
    obtain rfl : l' = l := Option.some.inj (exists_.symm.trans next)
    generalize (List.filter _ _).map PostItem.image = images
    have replaced := stays_of_ring (flagAll_aside images { s with active := l', next := none }).toRingOnly
    dsimp only
    generalize flagAll images { s with active := l', next := none } = u at replaced ⊢
    have panels := setPanelLayouts_only .active l'.epoch (List.finRange 32) u
    have all := setPanelLayouts_all .active l'.epoch u
    generalize (List.finRange 32).foldl (fun s p => setPanelLayout p .active l'.epoch s) u = v at panels all ⊢
    refine ⟨panels.mode.trans replaced.mode, panels.geometry.trans replaced.geometry, panels.active.trans replaced.active,
      panels.next.trans replaced.next, all, ?_⟩
    exact congrArg (fun c : Commit => { c with
      state := end_, remaining := 0, switched := Vector.replicate 32 false, changed := Vector.replicate 64 false })
      (panels.commit.trans replaced.commit)

/-- In flight, once one more panel has switched and some remain. -/
theorem PanelMoved.coherent {p : PanelId} {l : Layout} {s t : State} (moved : PanelMoved p l s t) (before : CommitCoherent s)
    (flying : s.commit.state = .inFlight) (next : s.next = some l) (grid : isGrid s.geometry p = true)
    (due : s.commit.switched[p] = false) (left : t.commit.remaining ≠ 0) : CommitCoherent t := by
  have count := unswitched_switched grid due moved.geometry (congrArg Commit.switched moved.commit)
  have remaining : t.commit.remaining = s.commit.remaining - 1 := congrArg Commit.remaining moved.commit
  have still : t.commit.state = .inFlight := (congrArg Commit.state moved.commit).trans flying
  refine ⟨?_, fun _ => moved.mode.trans (before.running flying), fun _ => ⟨?_, Nat.pos_of_ne_zero left⟩, fun q => ?_, ?_⟩
  · rw [moved.next, next, still]
    exact ⟨fun _ => rfl, fun _ => rfl⟩
  · have counted := (before.remaining flying).1
    omega
  · rw [moved.selection, moved.panelEpoch, moved.next, moved.active]
    by_cases here : p = q
    · subst here
      rw [put_self, put_self]
      exact .inr ⟨rfl, l, next, rfl⟩
    · rw [put_of_ne _ _ _ _ here, put_of_ne _ _ _ _ here]
      exact before.panels q
  · rw [moved.geometry]
    exact before.grid

theorem canSwitch_iff (s : State) (p : PanelId) : canSwitch s p = true ↔
    s.commit.state = .inFlight ∧ isGrid s.geometry p = true ∧ s.commit.switched[p] = false := by
  simp only [canSwitch, Bool.and_eq_true, beq_iff_eq, Bool.not_eq_true', and_assoc]

theorem CommitEnded.coherent {end_ : CommitState} {l : Layout} {s t : State} (ended : CommitEnded end_ l s t)
    (notFlying : end_ ≠ .inFlight) (grid : 1 ≤ gridCount s.geometry ∧ gridCount s.geometry ≤ 32) : CommitCoherent t := by
  refine commitCoherent_idle ?_ ended.next (fun p => ?_) ?_
  · rw [ended.commit]
    exact notFlying
  · rw [ended.active]
    exact ended.panels p
  · rw [ended.geometry]
    exact grid

/-- What a switch of a panel does: nothing, a move, or a move and the end of the commit (R110, R114). -/
inductive Switches (end_ : CommitState) (outcome : CommandOutcome) (p : PanelId) (s : State) : State → Prop where
  | notDue : (s.next = none ∨ canSwitch s p = false) → Switches end_ outcome p s s
  | moves (l : Layout) : s.next = some l → canSwitch s p = true → (movePanel p l s).commit.remaining ≠ 0 →
      Switches end_ outcome p s (movePanel p l s)
  | completes (l : Layout) : s.next = some l → canSwitch s p = true → (movePanel p l s).commit.remaining = 0 →
      Switches end_ outcome p s (completeCommit end_ outcome (movePanel p l s))

theorem switchPanel_switches (end_ : CommitState) (outcome : CommandOutcome) (p : PanelId) (s : State) :
    Switches end_ outcome p s (switchPanel end_ outcome p s) := by
  unfold switchPanel
  split
  · next none => exact .notDue (.inl none)
  · next l exists_ =>
    split
    · next due =>
      unfold completeIfLast
      split
      · next last => exact .completes l exists_ due last
      · next more => exact .moves l exists_ due more
    · next notDue => exact .notDue (.inr (Bool.eq_false_iff.2 notDue))

theorem switchPanel_commit (end_ : CommitState) (outcome : CommandOutcome) (p : PanelId) (s : State)
    (notFlying : end_ ≠ .inFlight) : KeepsCommit s (switchPanel end_ outcome p s) := by
  intro coherent
  have switches := switchPanel_switches end_ outcome p s
  generalize switchPanel end_ outcome p s = t at switches ⊢
  cases switches with
  | notDue => exact coherent
  | moves l next due more =>
    obtain ⟨flying, grid, unswitched⟩ := (canSwitch_iff s p).1 due
    exact (movePanel_moved p l s).coherent coherent flying next grid unswitched more
  | completes l next due last =>
    have moved := movePanel_moved p l s
    generalize movePanel p l s = u at moved ⊢
    refine (completeCommit_ended (moved.next.trans next)).coherent notFlying ?_
    rw [moved.geometry]
    exact coherent.grid

/-! ## A commit begins -/

theorem beginCommit_commit (number : Half) (s : State) (running : s.mode = .run) (idle : s.commit.state ≠ .inFlight) :
    KeepsCommit s (beginCommit number s) := by
  intro coherent
  unfold beginCommit
  dsimp only
  generalize stagedLayout s.shadow (s.epochCounter + 1) = l
  have gates := stays_of_ring (armGates_aside (changedList (changedSet s l))
    { s with epochCounter := s.epochCounter + 1, next := some l }).toRingOnly
  generalize armGates (changedList (changedSet s l)) { s with epochCounter := s.epochCounter + 1, next := some l } = u
    at gates ⊢
  refine ⟨?_, fun _ => gates.mode.trans running, fun _ => ⟨?_, coherent.grid.1⟩, fun p => .inl ?_, ?_⟩
  · show u.next.isSome = true ↔ CommitState.inFlight = .inFlight
    rw [gates.next]
    exact ⟨fun _ => rfl, fun _ => rfl⟩
  · show gridCount s.geometry
      = (List.finRange 32).countP fun p => isGrid u.geometry p && !(Vector.replicate 32 false)[p]
    have all : (fun p : PanelId => isGrid u.geometry p && !(Vector.replicate 32 false)[p])
        = fun p => decide (p.val < gridCount s.geometry) := by
      funext p
      simp [isGrid, gates.geometry]
    rw [all, countP_lt_finRange coherent.grid.2]
  · show u.selection[p] = .active ∧ u.panelEpoch[p] = u.active.epoch
    rw [gates.selection, gates.panelEpoch, gates.active]
    exact panels_active coherent idle p
  · show 1 ≤ gridCount u.geometry ∧ gridCount u.geometry ≤ 32
    rw [gates.geometry]
    exact coherent.grid

/-- What a COMMIT in SETUP does to the commit and the layouts (R65, R109). -/
theorem replaceActive_spec (number : Half) (s : State) :
    let t := replaceActive number s
    t.mode = s.mode ∧ t.geometry = s.geometry ∧ t.next = s.next ∧ t.commit.state = .done
      ∧ ∀ p : PanelId, t.selection[p] = .active ∧ t.panelEpoch[p] = t.active.epoch := by
  unfold replaceActive
  dsimp only
  generalize (List.filter _ _).map PostItem.image = images
  generalize changedList _ = changed
  generalize stagedLayout s.shadow (s.epochCounter + 1) = l
  have replaced := stays_of_ring ((flagAll_aside images { s with epochCounter := s.epochCounter + 1, active := l }).trans
    (armGates_aside changed _)).toRingOnly
  generalize armGates changed (flagAll images { s with epochCounter := s.epochCounter + 1, active := l }) = u
    at replaced ⊢
  have panels := setPanelLayouts_only .active l.epoch (List.finRange 32) u
  have all := setPanelLayouts_all .active l.epoch u
  generalize (List.finRange 32).foldl (fun s p => setPanelLayout p .active l.epoch s) u = v at panels all ⊢
  have active := panels.active.trans replaced.active
  refine ⟨panels.mode.trans replaced.mode, panels.geometry.trans replaced.geometry, panels.next.trans replaced.next, rfl,
    fun p => ?_⟩
  obtain ⟨selection, epoch⟩ := all p
  exact ⟨selection, epoch.trans (congrArg Layout.epoch active).symm⟩

theorem not_flying_in_setup {s : State} (coherent : CommitCoherent s) (setup : s.mode = .setup) :
    s.commit.state ≠ .inFlight := fun flying => by
  have running := coherent.running flying
  simp [setup] at running

theorem replaceActive_commit (number : Half) (s : State) (setup : s.mode = .setup) :
    KeepsCommit s (replaceActive number s) := by
  intro coherent
  obtain ⟨mode, geometry, next, state, panels⟩ := replaceActive_spec number s
  refine commitCoherent_idle (by rw [state]; simp) ?_ panels (by rw [geometry]; exact coherent.grid)
  rw [next]
  exact next_none coherent (not_flying_in_setup coherent setup)

/-! ## The mode changes -/

/-- With no NEXT layout a switch does nothing. -/
theorem switchPanel_idle {end_ : CommitState} {outcome : CommandOutcome} {p : PanelId} {s : State} (none : s.next = none) :
    switchPanel end_ outcome p s = s := by
  unfold switchPanel
  rw [none]

theorem becomeUnsynced_idle (p : PanelId) (cause : Nat) {s : State} (none : s.next = none) :
    CommitStays s (becomeUnsynced p cause s) := by
  unfold becomeUnsynced
  dsimp only
  split
  · exact .refl s
  · have unsynced := (stays_of_ring (setSync_aside p { s.sync[p] with state := .unsynced } s).toRingOnly).trans
      (stays_of_ring (postEvent_ringOnly
        (evPanelUnsynced p cause s.sync[p].state s.sync[p].lastRead) _))
    unfold switchOnTime
    rw [switchPanel_idle (unsynced.next.trans none)]
    exact unsynced

theorem latchSync_idle (old new : Geometry) (p : PanelId) {s : State} (none : s.next = none) :
    CommitStays s (latchSync old new p s) := by
  unfold latchSync
  split
  · exact ite_keeps (becomeUnsynced_idle p 2 none) (.refl s)
  · exact .refl s
  · exact stays_of_ring ((setSync_aside p _ s).trans (flag_aside _ _)).toRingOnly

theorem latchSyncs_idle (old new : Geometry) (l : List PanelId) {s : State} (none : s.next = none) :
    CommitStays s (l.foldl (fun s p => latchSync old new p s) s) := by
  induction l generalizing s with
  | nil => exact .refl s
  | cons p l ih =>
    have first := latchSync_idle old new p none
    exact first.trans (ih (first.next.trans none))

/-- A latch with no commit in flight replaces the geometry, of what the commit and the layouts are about. -/
theorem latchGeometry_idle {s : State} (none : s.next = none) :
    CommitStays { s with geometry := shadowGeometry s.shadow } (latchGeometry s) := by
  have latched := latchSyncs_idle s.geometry (shadowGeometry s.shadow) (List.finRange 32) (s := { s with
    geometry := shadowGeometry s.shadow, holds := s.holds.map fun w => { w with latched := true } }) none
  have cleared := latched.trans (stays_of_fill (clearFills_only _))
  exact ⟨cleared.mode, cleared.geometry, cleared.active, cleared.next, cleared.selection, cleared.panelEpoch, cleared.commit⟩

/-- A geometry that passes the RUN entry checks has 1 to 32 grid panels (R26). -/
theorem grid_of_passes {s : State} (passes : runCheck s = none) :
    1 ≤ gridCount (shadowGeometry s.shadow) ∧ gridCount (shadowGeometry s.shadow) ≤ 32 := by
  simp only [runCheck, Option.or_eq_none_iff] at passes
  have wall := passes.1
  unfold wallCheck at wall
  split at wall
  · cases wall
  · next fits =>
    have columns : 1 ≤ (shadowGeometry s.shadow).columns := by omega
    have rows : 1 ≤ (shadowGeometry s.shadow).rows := by omega
    exact ⟨Nat.mul_pos columns rows, by omega⟩

theorem enterRun_commit (s : State) (setup : s.mode = .setup) (passes : runCheck s = none) :
    KeepsCommit s (setMode .run (latchGeometry s)) := by
  intro coherent
  have idle := not_flying_in_setup coherent setup
  have latched := latchGeometry_idle (next_none coherent idle)
  refine commitCoherent_idle ?_ (latched.next.trans (next_none (s := s) coherent idle)) (fun p => ?_) ?_
  · show (latchGeometry s).commit.state ≠ _
    rw [latched.commit]
    exact idle
  · show (latchGeometry s).selection[p] = _ ∧ (latchGeometry s).panelEpoch[p] = (latchGeometry s).active.epoch
    rw [latched.selection, latched.panelEpoch, latched.active]
    exact panels_active coherent idle p
  · show 1 ≤ gridCount (latchGeometry s).geometry ∧ gridCount (latchGeometry s).geometry ≤ 32
    rw [latched.geometry]
    exact grid_of_passes passes

/-- After a switch of these panels: no commit is in flight, or each of them that is a grid panel has switched. -/
def SwitchedIn (l : List PanelId) (s : State) : Prop :=
  s.commit.state = .inFlight → ∀ p ∈ l, isGrid s.geometry p = true → s.commit.switched[p] = true

theorem SwitchedIn.step {end_ : CommitState} {outcome : CommandOutcome} {p : PanelId} {l : List PanelId} {s : State}
    (coherent : CommitCoherent s) (notFlying : end_ ≠ .inFlight) (done : SwitchedIn l s) :
    SwitchedIn (p :: l) (switchPanel end_ outcome p s) := by
  have switches := switchPanel_switches end_ outcome p s
  generalize switchPanel end_ outcome p s = t at switches ⊢
  cases switches with
  | notDue why =>
    intro flying q mem grid
    obtain rfl | tail := List.mem_cons.1 mem
    · rw [← Bool.not_eq_false]
      intro unswitched
      obtain none | notDue := why
      · have exists_ := coherent.next.2 flying
        simp [none] at exists_
      · exact absurd ((canSwitch_iff s q).2 ⟨flying, grid, unswitched⟩) (by simp [notDue])
    · exact done flying q tail grid
  | moves k next due more =>
    have moved := movePanel_moved p k s
    obtain ⟨flying, _, _⟩ := (canSwitch_iff s p).1 due
    intro _ q mem grid
    rw [moved.geometry] at grid
    rw [moved.commit]
    show (put s.commit.switched p true)[q] = true
    by_cases here : p = q
    · subst here
      rw [put_self]
    · rw [put_of_ne _ _ _ _ here]
      exact done flying q ((List.mem_cons.1 mem).resolve_left (Ne.symm here)) grid
  | completes k next due last =>
    intro flying
    have ended := completeCommit_ended (end_ := end_) (outcome := outcome) ((movePanel_moved p k s).next.trans next)
    rw [ended.commit] at flying
    exact absurd flying notFlying

/-- Once every panel has been offered a switch, no commit is in flight. -/
theorem not_flying_of_switched {s : State} (coherent : CommitCoherent s) (done : SwitchedIn (List.finRange 32) s) :
    s.commit.state ≠ .inFlight := fun flying => by
  obtain ⟨counted, some_⟩ := coherent.remaining flying
  have none_left : unswitched s = 0 := List.countP_eq_zero.2 fun p mem => by
    cases grid : isGrid s.geometry p with
    | false => simp
    | true => simp [done flying p mem grid]
  omega

/-- A forced commit ends before the mode changes (R116). -/
theorem forceCommit_commit {s : State} (coherent : CommitCoherent s) :
    CommitCoherent (forceCommit s) ∧ (forceCommit s).commit.state ≠ .inFlight := by
  have fold : ∀ (l before : List PanelId) (s : State), CommitCoherent s → SwitchedIn before s →
      CommitCoherent (l.foldl (fun s p => switchPanel .forced .forced p s) s)
        ∧ SwitchedIn (l.reverse ++ before) (l.foldl (fun s p => switchPanel .forced .forced p s) s) := by
    intro l
    induction l with
    | nil => exact fun _ _ coherent done => ⟨coherent, done⟩
    | cons p l ih =>
      intro before s coherent done
      have next := ih (p :: before) (switchPanel .forced .forced p s)
        (switchPanel_commit _ _ _ _ (by decide) coherent) (done.step coherent (by decide))
      simpa using next
  obtain ⟨kept, done⟩ := fold (List.finRange 32) [] s coherent (fun _ _ mem => by cases mem)
  refine ⟨kept, not_flying_of_switched kept fun flying p mem grid => done flying p ?_ grid⟩
  simp

theorem enterSetup_commit (s : State) : KeepsCommit s (setMode .setup (forceCommit s)) := by
  intro coherent
  obtain ⟨kept, idle⟩ := forceCommit_commit coherent
  exact commitCoherent_idle (s := setMode .setup (forceCommit s)) idle (next_none (s := forceCommit s) kept idle)
    (panels_active (s := forceCommit s) kept idle) kept.grid

/-! ## A wall reset -/

theorem beforeReset_commit (s : State) :
    (inEitherOrder abandonCommit quarantineAll s).commit.state ≠ .inFlight
      ∧ (inEitherOrder abandonCommit quarantineAll s).geometry = s.geometry := by
  have abandoned : ∀ s : State, (abandonCommit s).commit.state ≠ .inFlight ∧ (abandonCommit s).geometry = s.geometry := by
    intro s
    unfold abandonCommit
    split
    · exact ⟨by simp, rfl⟩
    · next idle => exact ⟨idle, rfl⟩
  have quarantined : ∀ s : State, (quarantineAll s).commit = s.commit ∧ (quarantineAll s).geometry = s.geometry := by
    intro s
    unfold quarantineAll reportExhausted
    dsimp only
    split <;> exact ⟨rfl, rfl⟩
  unfold inEitherOrder
  dsimp only
  split
  · rw [(quarantined _).1, (quarantined _).2]
    exact abandoned _
  · rw [(abandoned _).2]
    exact ⟨(abandoned _).1, (quarantined _).2⟩

theorem resetBlocks_commit (s : State) : KeepsCommit s (resetBlocks s) := by
  intro coherent
  obtain ⟨idle, geometry⟩ := beforeReset_commit s
  refine commitCoherent_idle idle rfl (fun p => ⟨?_, ?_⟩) ?_
  · exact Vector.getElem_replicate p.isLt
  · exact Vector.getElem_replicate p.isLt
  · show 1 ≤ gridCount (inEitherOrder abandonCommit quarantineAll s).geometry ∧ _
    exact geometry ▸ coherent.grid

theorem commitCoherent_powerOn (base : Byte) (prio : Initiator) : CommitCoherent (State.powerOn base prio) :=
  commitCoherent_idle (by simp [State.powerOn, Commit.powerOn]) rfl (fun p => by simp [State.powerOn])
    (show 1 ≤ gridCount Geometry.powerOn ∧ gridCount Geometry.powerOn ≤ 32 by decide)

/-! ## Every step -/

theorem grantPass_commit (s : State) : CommitStays s (grantPass s) := by
  unfold grantPass
  split <;> constructor <;> rfl

theorem grantExpansion_commit (tag : Tag) (s : State) : CommitStays s (grantExpansion tag s) := by
  unfold grantExpansion
  split
  · exact .refl s
  · next r rest _ =>
    have issued : CommitStays s (issueOwn tag (.expansion r.window r.panel) (recordTxn tag r) (setQueue rest s)) := by
      constructor <;> rfl
    exact issued.trans (stays_of_walk (walk_only _))

theorem expandNew_commit (t : Txn) (run : Run) (s : State) : CommitStays s (expandNew t run s) := by
  have stretched := expandStretch_only run .first s
  have overrun : ∀ r (s : State), CommitStays s (liveOverrun t.initiator run r s) := fun r s => by
    unfold liveOverrun
    split <;> constructor <;> rfl
  unfold expandNew
  split
  · next stretch =>
    rw [stretch] at stretched
    exact stays_of_walk (stretched.trans (finishAperture_only t run.source _))
  · next stretch =>
    rw [stretch] at stretched
    split
    · exact ((stays_of_walk stretched).trans (overrun _ _)).trans (stays_of_walk (finishAperture_only t run.source _))
    · exact stays_of_walk (stretched.trans (holds_only _ _))

theorem keepsCommit : RespectedByPort KeepsCommit where
  refl _ h := h
  trans := KeepsCommit.trans
  aside change := .of_stays (stays_of_ring change.toRingOnly)
  postEvent e s := .of_stays (stays_of_ring (postEvent_ringOnly e s))
  postEnded off s := .of_stays (stays_of_ring (postEnded_ringOnly off s))
  consumerWritten s := .of_stays (stays_of_ring (consumerWritten_ringOnly s))
  grantEvent tag s := .of_stays (stays_of_ring (grantEvent_ringOnly tag s))
  resetPoster s := .of_stays (stays_of_ring (resetPoster_ringOnly s))
  shadowPhase _ _ := .of_stays (by constructor <;> rfl)
  cadence _ _ _ := .of_stays (by constructor <;> rfl)
  awaiting s := .of_stays (foldl_keeps CommitStays.refl CommitStays.trans (fun s src => setCadence src (.zeroed .awaiting) s)
    (fun _ _ => by constructor <;> rfl) _ s)
  activeRecords _ _ coherent := ⟨coherent.next, coherent.running, coherent.remaining, coherent.panels, coherent.grid⟩
  nextRecords rs l s exists_ coherent := by
    refine ⟨?_, coherent.running, coherent.remaining, fun p => ?_, coherent.grid⟩
    · rw [← coherent.next, exists_]
      exact ⟨fun _ => rfl, fun _ => rfl⟩
    · obtain active | ⟨selected, k, same, epoch⟩ := coherent.panels p
      · exact .inl active
      · obtain rfl : l = k := Option.some.inj (exists_.symm.trans same)
        exact .inr ⟨selected, _, rfl, epoch⟩
  enable _ _ _ := .of_stays (by constructor <;> rfl)
  disable _ _ := .of_stays (by constructor <;> rfl)
  joinMarking es s _ := .of_stays (stays_of_fill (joinMarking_only es s))
  answered c s := .of_stays (stays_of_fill (answered_only c s))
  endCurrent c o s _ := .of_stays (stays_of_fill (endCurrent_only c o s))
  startEntry c s _ := .of_stays (stays_of_fill (startEntry_only c s))
  fillIssued c s := .of_stays (stays_of_fill (fillIssued_only c s))
  clearFills s := .of_stays (stays_of_fill (clearFills_only s))
  switchPanel end_ outcome p s notFlying := switchPanel_commit end_ outcome p s notFlying
  late _ _ coherent := ⟨coherent.next, coherent.running, coherent.remaining, coherent.panels, coherent.grid⟩
  refuse number r s notBusy coherent := by
    have idle : s.commit.state ≠ .inFlight := fun flying => notBusy ⟨coherent.running flying, flying⟩
    exact commitCoherent_idle (by simp) (next_none (s := s) coherent idle) (panels_active (s := s) coherent idle)
      coherent.grid
  beginCommit := beginCommit_commit
  replaceActive := replaceActive_commit
  enterRun := enterRun_commit
  enterSetup := enterSetup_commit
  resetBlocks := resetBlocks_commit
  grantPass s := .of_stays (grantPass_commit s)
  grantExpansion tag s := .of_stays (grantExpansion_commit tag s)
  enterPass t s := .of_stays (stays_of_walk (enterPass_only t s))
  expandNew t run s := .of_stays (expandNew_commit t run s)
  lines _ _ := .of_stays (by constructor <;> rfl)
  assertReset _ := .of_stays (by constructor <;> rfl)
  releaseReset base prio s _ := KeepsCommit.of_stays (s := State.powerOn base prio) (t := releaseReset base prio s)
    (by constructor <;> rfl) (commitCoherent_powerOn base prio)

/-- Settles O52: a switch counts its panel off and the last one ends the commit; a commit begins with no panel switched,
in RUN alone; the mode leaves RUN with the commit forced. -/
theorem commitCoherenceKept : Obligations.CommitCoherenceKept := fun _ _ coherent taken =>
  invariant_step keepsCommit coherent taken

end Sys2Proof.Commits

/-! PROOFS of O59: the order of the ingest port. A transaction that is taken either ends, or is held, or waits for the path;
everything else the part does lets such transactions end, or go from the holds to the path. -/

namespace Sys2Proof.Intake

open Sys2Proof Sys2Proof.Machine Sys2Proof.Steps Sys2Proof.BlockInvariants

/-! ## Who is being waited for -/

/-- The initiators of the held writes. -/
def heldBy (s : State) : List Initiator := s.holds.map (·.txn.initiator)

/-- The initiators of the transactions that wait for room in the pass-through FIFO. -/
def waitingBy (s : State) : List Initiator := s.passWait.map (·.initiator)

/-- The FIFO and those that wait for room are in order, and with these held no initiator is waited for twice. -/
structure Orderly (held : List Initiator) (s : State) : Prop where
  fifo : s.passFifo.length ≤ Config.fifoCapacity
  full : s.passWait ≠ [] → s.passFifo.length = Config.fifoCapacity
  one : (held ++ waitingBy s).Nodup

/-- From `s` with these held to `t` with those the order is kept, and nobody is newly waited for. -/
def Passes (held : List Initiator) (s : State) (held' : List Initiator) (t : State) : Prop :=
  Orderly held s → Orderly held' t ∧ ∀ i, i ∈ held' ++ waitingBy t → i ∈ held ++ waitingBy s

theorem Passes.trans {a b c : List Initiator} {s t u : State} (h : Passes a s b t) (k : Passes b t c u) :
    Passes a s c u := fun orderly =>
  have first := h orderly
  have second := k first.1
  ⟨second.1, fun i mem => first.2 i (second.2 i mem)⟩

theorem Passes.of_same {held : List Initiator} {s t : State} (fifo : t.passFifo = s.passFifo)
    (wait : t.passWait = s.passWait) : Passes held s held t := fun orderly => by
  have waiting : waitingBy t = waitingBy s := by rw [waitingBy, waitingBy, wait]
  refine ⟨⟨?_, ?_, ?_⟩, fun i => ?_⟩
  · rw [fifo]
    exact orderly.fifo
  · rw [fifo, wait]
    exact orderly.full
  · rw [waiting]
    exact orderly.one
  · rw [waiting]
    exact id

/-- Held beside what passes, an initiator stays held. -/
theorem Passes.beside {held held' : List Initiator} {s t : State} (h : Passes held s held' t) (i : Initiator) :
    Passes (i :: held) s (i :: held') t := fun orderly => by
  obtain ⟨fresh, rest⟩ := List.nodup_cons.1 orderly.one
  obtain ⟨kept, within⟩ := h ⟨orderly.fifo, orderly.full, rest⟩
  refine ⟨⟨kept.fifo, kept.full, List.nodup_cons.2 ⟨fun mem => fresh (within i mem), kept.one⟩⟩, fun j mem => ?_⟩
  obtain rfl | mem := List.mem_cons.1 mem
  · exact List.mem_cons_self
  · exact List.mem_cons_of_mem _ (within j mem)

/-- An initiator's transaction ends. -/
theorem Passes.ends (i : Initiator) (held : List Initiator) (s : State) : Passes (i :: held) s held s := fun orderly =>
  ⟨⟨orderly.fifo, orderly.full, (List.nodup_cons.1 orderly.one).2⟩, fun _ mem => List.mem_cons_of_mem i mem⟩

/-- An initiator's transaction goes to the path. -/
theorem Passes.enters (t : Txn) (held : List Initiator) (s : State) :
    Passes (t.initiator :: held) s held (enterPass t s) := fun orderly => by
  unfold enterPass
  split
  · next room =>
    have ended := Passes.ends t.initiator held s orderly
    refine ⟨⟨?_, fun wait => absurd room.2 wait, ended.1.one⟩, ended.2⟩
    rw [List.length_append]
    exact room.1
  · next noRoom =>
    have full : s.passFifo.length = Config.fifoCapacity := by
      by_cases none : s.passWait = []
      · have := orderly.fifo
        have : ¬ s.passFifo.length < Config.fifoCapacity := fun room => noRoom ⟨room, none⟩
        omega
      · exact orderly.full none
    have moved : held ++ (s.passWait ++ [t]).map (·.initiator) = (held ++ waitingBy s) ++ [t.initiator] := by
      simp [waitingBy]
    refine ⟨⟨orderly.fifo, fun _ => full, ?_⟩, fun i mem => ?_⟩
    · show (held ++ (s.passWait ++ [t]).map (·.initiator)).Nodup
      rw [moved]
      exact (List.perm_append_singleton _ _).nodup_iff.2 orderly.one
    · change i ∈ held ++ (s.passWait ++ [t]).map (·.initiator) at mem
      rw [moved] at mem
      exact (List.perm_append_singleton _ _).mem_iff.1 mem

/-- An aperture write is answered or copied. -/
theorem Passes.finishes (t : Txn) (src : SourceId) (held : List Initiator) (s : State) :
    Passes (t.initiator :: held) s held (finishAperture t src s) := by
  unfold finishAperture
  split
  · exact (Passes.ends t.initiator held s).trans (.of_same rfl rfl)
  · exact .enters t held s

/-! ## A walk of the hold list -/

theorem expandFrom_port (fuel : Nat) (run : Run) (place : Position) (s : State) :
    (expandFrom fuel run place s).1.passFifo = s.passFifo ∧ (expandFrom fuel run place s).1.passWait = s.passWait
      ∧ (expandFrom fuel run place s).1.holds = s.holds := by
  induction fuel generalizing place s with
  | zero => exact ⟨rfl, rfl, rfl⟩
  | succ fuel ih =>
    unfold expandFrom
    split
    · exact ⟨rfl, rfl, rfl⟩
    · split
      · exact ih _ (enqueue _ s)
      · exact ⟨rfl, rfl, rfl⟩

theorem expandStretch_port {run : Run} {place : Position} {s s' : State} {ending : Stretch}
    (stretch : expandStretch run place s = (s', ending)) :
    s'.passFifo = s.passFifo ∧ s'.passWait = s.passWait ∧ s'.holds = s.holds := by
  have expanded := expandFrom_port (Config.shareLimit + 1) run place s
  unfold expandStretch at stretch
  rwa [stretch] at expanded

/-- The initiators of the writes of a walk. -/
def turnsBy (turns : List (Held × Bool)) : List Initiator := turns.map (·.1.txn.initiator)

theorem walkTurns_passes (l : List Held) (s : State) :
    Passes (l.map (·.txn.initiator)) s (turnsBy (walkTurns l s).2) (walkTurns l s).1 := by
  induction l generalizing s with
  | nil => exact .of_same rfl rfl
  | cons w rest ih =>
    unfold walkTurns
    split
    · exact (Passes.finishes w.txn _ _ s).trans (ih _)
    · next r _ _ =>
      split
      · exact (Passes.trans (s := s) (t := enqueue r s) (.of_same rfl rfl) (ih _)).beside w.txn.initiator
      · exact (ih s).beside w.txn.initiator

theorem walkContinue_passes (turns : List (Held × Bool)) (s : State) :
    Passes (turnsBy turns) s ((walkContinue turns s).2.map (·.txn.initiator)) (walkContinue turns s).1 := by
  induction turns generalizing s with
  | nil => exact .of_same rfl rfl
  | cons turn rest ih =>
    obtain ⟨w, joined⟩ := turn
    cases joined with
    | false => exact (ih s).beside w.txn.initiator
    | true =>
      unfold walkContinue
      split
      · next stretch =>
        obtain ⟨fifo, wait, _⟩ := expandStretch_port stretch
        exact ((Passes.of_same fifo wait).trans (Passes.finishes w.txn _ _ _)).trans (ih _)
      · next stretch =>
        obtain ⟨fifo, wait, _⟩ := expandStretch_port stretch
        exact ((Passes.of_same fifo wait).trans (ih _)).beside w.txn.initiator

theorem walk_passes (s : State) : Passes (heldBy s) s (heldBy (walk s)) (walk s) :=
  ((walkTurns_passes s.holds s).trans (walkContinue_passes _ _)).trans (.of_same rfl rfl)

/-! ## What the part does between two transactions -/

/-- The lines stay, and the order is kept with nobody newly waited for. -/
structure KeepsOrder (s t : State) : Prop where
  lines : t.lines = s.lines
  ponrst : t.ponrst = s.ponrst
  passes : Passes (heldBy s) s (heldBy t) t

theorem KeepsOrder.trans {s t u : State} (h : KeepsOrder s t) (k : KeepsOrder t u) : KeepsOrder s u :=
  ⟨k.lines.trans h.lines, k.ponrst.trans h.ponrst, h.passes.trans k.passes⟩

/-- The blocks of the ingest port stay. -/
theorem KeepsOrder.of_same {s t : State} (lines : t.lines = s.lines) (ponrst : t.ponrst = s.ponrst)
    (holds : t.holds = s.holds) (fifo : t.passFifo = s.passFifo) (wait : t.passWait = s.passWait) : KeepsOrder s t := by
  have held : heldBy t = heldBy s := by rw [heldBy, heldBy, holds]
  exact ⟨lines, ponrst, held.symm ▸ .of_same fifo wait⟩

theorem KeepsOrder.of_ring {s t : State} (h : RingOnly s t) : KeepsOrder s t :=
  .of_same h.lines h.ponrst h.holds h.passFifo h.passWait

theorem KeepsOrder.of_fill {s t : State} (h : FillOnly s t) : KeepsOrder s t :=
  .of_same h.lines h.ponrst h.holds h.passFifo h.passWait

theorem walk_order (s : State) : KeepsOrder s (walk s) := ⟨(walk_only s).lines, (walk_only s).ponrst, walk_passes s⟩

theorem purge_order (p : PanelId) (epoch : Half) (s : State) : KeepsOrder s (purge p epoch s) := by
  unfold purge
  dsimp only
  split
  · exact walk_order s
  · exact KeepsOrder.trans (t := setQueue (s.queue.filter fun r => !(r.panel == p && r.epoch != epoch)) s)
      (.of_same rfl rfl rfl rfl rfl) (walk_order _)

theorem grantExpansion_order (tag : Tag) (s : State) : KeepsOrder s (grantExpansion tag s) := by
  unfold grantExpansion
  split
  · exact .of_same rfl rfl rfl rfl rfl
  · next r rest _ =>
    exact KeepsOrder.trans (t := issueOwn tag (.expansion r.window r.panel) (recordTxn tag r) (setQueue rest s))
      (.of_same rfl rfl rfl rfl rfl) (walk_order _)

/-- The head of the FIFO leaves, and the transaction that has waited longest takes the place (R10, R14). -/
theorem grantPass_order (s : State) : KeepsOrder s (grantPass s) := by
  refine ⟨?_, ?_, fun orderly => ?_⟩
  · unfold grantPass
    split <;> rfl
  · unfold grantPass
    split <;> rfl
  unfold grantPass
  split
  · exact ⟨orderly, fun _ mem => mem⟩
  · next t rest fifo =>
    have before := orderly.fifo
    rw [fifo, List.length_cons] at before
    have later : ((s.passWait.drop 1).map (·.initiator)).Sublist (waitingBy s) := (List.drop_sublist 1 _).map _
    have all : (heldBy s ++ (s.passWait.drop 1).map (·.initiator)).Sublist (heldBy s ++ waitingBy s) :=
      (List.Sublist.refl _).append later
    refine ⟨⟨?_, fun left => ?_, orderly.one.sublist all⟩, fun i mem => all.subset mem⟩
    · simp only [List.length_append, List.length_take]
      omega
    · have some_ : s.passWait ≠ [] := fun none => left (by simp [none])
      have full := orderly.full some_
      have many := List.length_pos_iff.2 some_
      rw [fifo, List.length_cons] at full
      simp only [List.length_append, List.length_take]
      omega

theorem resetBlocks_order (s : State) : KeepsOrder s (resetBlocks s) := by
  have before := beforeReset_stays s
  refine ⟨before.lines, before.ponrst, fun orderly => ?_⟩
  have kept := (KeepsOrder.of_same before.lines before.ponrst before.holds before.passFifo before.passWait).passes orderly
  have fewer : ([] ++ waitingBy (inEitherOrder abandonCommit quarantineAll s)).Sublist
      (heldBy (inEitherOrder abandonCommit quarantineAll s) ++ waitingBy (inEitherOrder abandonCommit quarantineAll s)) :=
    (List.nil_sublist _).append (List.Sublist.refl _)
  exact ⟨⟨kept.1.fifo, kept.1.full, kept.1.one.sublist fewer⟩, fun i mem => kept.2 i (fewer.subset mem)⟩

theorem keepsOrder : Respected KeepsOrder := RespectedByBlocks.toRespected {
    refl := fun _ => .of_same rfl rfl rfl rfl rfl
    trans := KeepsOrder.trans
    layouts := fun change => .of_same change.lines change.ponrst change.holds change.passFifo change.passWait
    postEvent := fun e s => .of_ring (postEvent_ringOnly e s)
    postEnded := fun off s => .of_ring (postEnded_ringOnly off s)
    consumerWritten := fun s => .of_ring (consumerWritten_ringOnly s)
    grantEvent := fun tag s => .of_ring (grantEvent_ringOnly tag s)
    resetPoster := fun s => .of_ring (resetPoster_ringOnly s)
    shadowPhase := fun _ _ => .of_same rfl rfl rfl rfl rfl
    cadence := fun _ _ _ => .of_same rfl rfl rfl rfl rfl
    awaiting := fun s =>
      have only := awaiting_only s
      .of_same only.lines only.ponrst only.holds only.passFifo only.passWait
    enable := fun _ _ _ => .of_same rfl rfl rfl rfl rfl
    disable := fun _ _ => .of_same rfl rfl rfl rfl rfl
    joinMarking := fun es s _ => .of_fill (joinMarking_only es s)
    answered := fun c s => .of_fill (answered_only c s)
    endCurrent := fun c o s _ => .of_fill (endCurrent_only c o s)
    startEntry := fun c s _ => .of_fill (startEntry_only c s)
    fillIssued := fun c s => .of_fill (fillIssued_only c s)
    clearFills := fun s => .of_fill (clearFills_only s)
    purge := purge_order
    fillAtSwitch := fun p l s => .of_fill (fillAtSwitch_only p l s)
    latchHolds := fun s => by
      refine ⟨rfl, rfl, ?_⟩
      have same : heldBy { s with holds := s.holds.map fun w => { w with latched := true } } = heldBy s := by
        simp [heldBy, Function.comp_def]
      rw [same]
      exact .of_same rfl rfl
    resetBlocks := resetBlocks_order
    grantPass := grantPass_order
    grantExpansion := grantExpansion_order }

/-! ## A transaction is taken -/

/-- The lines stay, and of the taken transaction's initiator and the held ones the order is kept. -/
structure TakenInOrder (i : Initiator) (s t : State) : Prop where
  lines : t.lines = s.lines
  ponrst : t.ponrst = s.ponrst
  passes : Passes (i :: heldBy s) s (heldBy t) t

theorem TakenInOrder.after {i : Initiator} {s t u : State} (h : KeepsOrder s t) (k : TakenInOrder i t u) :
    TakenInOrder i s u :=
  ⟨k.lines.trans h.lines, k.ponrst.trans h.ponrst, (h.passes.beside i).trans k.passes⟩

theorem enterPass_taken (t : Txn) (s : State) : TakenInOrder t.initiator s (enterPass t s) := by
  have held : heldBy (enterPass t s) = heldBy s := by unfold enterPass; split <;> rfl
  exact ⟨(enterPass_only t s).lines, (enterPass_only t s).ponrst, held.symm ▸ .enters t _ s⟩

theorem finishAperture_taken (t : Txn) (src : SourceId) (s : State) :
    TakenInOrder t.initiator s (finishAperture t src s) := by
  have held : heldBy (finishAperture t src s) = heldBy s := by
    unfold finishAperture enterPass
    split
    · rfl
    · split <;> rfl
  exact ⟨(finishAperture_only t src s).lines, (finishAperture_only t src s).ponrst, held.symm ▸ .finishes t src _ s⟩

theorem answer_taken (t : Txn) (i : Initiator) (st : Status) (s : State) : TakenInOrder i s (answer t st s) :=
  ⟨rfl, rfl, (Passes.ends i (heldBy s) s).trans (.of_same rfl rfl)⟩

theorem expandNew_taken (t : Txn) (run : Run) (s : State) : TakenInOrder t.initiator s (expandNew t run s) := by
  have stretched : ∀ {s' ending}, expandStretch run .first s = (s', ending) → KeepsOrder s s' := fun stretch => by
    obtain ⟨fifo, wait, holds⟩ := expandStretch_port stretch
    have only := expandStretch_only run .first s
    rw [stretch] at only
    exact .of_same only.lines only.ponrst holds fifo wait
  unfold expandNew
  split
  · next stretch => exact (finishAperture_taken t run.source _).after (stretched stretch)
  · next s' r place stretch =>
    split
    · have overrun : KeepsOrder s' (liveOverrun t.initiator run r s') := by
        unfold liveOverrun
        split <;> exact .of_same rfl rfl rfl rfl rfl
      exact (finishAperture_taken t run.source _).after ((stretched stretch).trans overrun)
    · refine TakenInOrder.after (stretched stretch) ⟨rfl, rfl, fun orderly => ?_⟩
      have last : (t.initiator :: heldBy s' ++ waitingBy s').Perm (heldBy s' ++ [t.initiator] ++ waitingBy s') :=
        (List.perm_append_singleton _ _).symm.append_right _
      have held : heldBy { s' with
          holds := s'.holds ++ [{ txn := t, run := run, waiting := r, place := place, latched := false }] }
            = heldBy s' ++ [t.initiator] := by simp [heldBy]
      rw [held]
      exact ⟨⟨orderly.fifo, orderly.full, last.nodup_iff.1 orderly.one⟩, fun i mem => last.mem_iff.2 mem⟩

theorem take_inOrder (t : Txn) (s : State) : TakenInOrder t.initiator s (take t s) := by
  unfold take
  split
  · unfold takeMalformed
    exact ite_keeps (R := TakenInOrder t.initiator)
      ((answer_taken t _ .fault _).after (keepsOrder.postEvent _ s)) (enterPass_taken t s)
  · split
    · exact (ite_keeps (R := TakenInOrder t.initiator) (answer_taken t _ .fault _)
        (enterPass_taken (trimmed t _) _)).after (keepsOrder.controlEffects _ _ _ _ s)
    · exact (expandNew_taken t _ _).after (ite_keeps (keepsOrder.frameStart _ s) (keepsOrder.refl s))
    · exact (enterPass_taken t _).after (keepsOrder.snoop _ t s)
    · exact enterPass_taken t s

/-! ## The lines -/

theorem takingBlocked_iff (s : State) (i : Initiator) : takingBlocked s i = true ↔ i ∈ heldBy s ++ waitingBy s := by
  simp only [takingBlocked, heldBy, waitingBy, Bool.or_eq_true, List.any_eq_true, beq_iff_eq, List.mem_append, List.mem_map]

theorem mem_readyInitiators (s : State) (i : Initiator) :
    i ∈ readyInitiators s ↔ s.lines[i] ≠ [] ∧ takingBlocked s i = false := by
  simp [readyInitiators]

theorem settled_iff (s : State) : Settled s ↔ ∀ i : Initiator, s.lines[i] ≠ [] → takingBlocked s i = true := by
  simp only [Settled, List.eq_nil_iff_forall_not_mem, mem_readyInitiators, not_and, Bool.not_eq_false]

/-- Each line holds its own initiator's transactions. -/
def LinesOwn (s : State) : Prop := ∀ i : Initiator, ∀ t ∈ s.lines[i], t.initiator = i

theorem intakeCoherent_iff (s : State) :
    IntakeCoherent s ↔ LinesOwn s ∧ Orderly (heldBy s) s ∧ (s.ponrst = true ∨ Settled s) where
  mp h := ⟨h.lines, ⟨h.fifo, h.full, h.one⟩, h.settled⟩
  mpr := fun ⟨lines, orderly, settled⟩ => ⟨lines, orderly.fifo, orderly.full, orderly.one, settled⟩

theorem nextReady_spec (s : State) : (nextReady s = none ∧ Settled s)
    ∨ ∃ i n, nextReady s = some (i, { s with choices := n }) ∧ i ∈ readyInitiators s := by
  unfold nextReady
  split
  · next none => exact .inl ⟨rfl, none⟩
  · next i one => exact .inr ⟨i, s.choices, rfl, by simp [one]⟩
  · next i rest _ several =>
    refine .inr ⟨_, s.choices + 1, rfl, ?_⟩
    have inside : Config.pick s.choices % (rest.length + 1) < (i :: rest).length := Nat.mod_lt _ (Nat.succ_pos _)
    rw [several, List.getD_eq_getElem?_getD, List.getElem?_eq_getElem inside]
    exact List.getElem_mem _

/-- One transaction off a line is one less that waits. -/
theorem sum_put_tail {n : Nat} (v : Vector (List Txn) n) (i : Fin n) {t : Txn} {rest : List Txn} (head : v[i] = t :: rest) :
    (v.toList.map List.length).sum = ((put v i rest).toList.map List.length).sum + 1 := by
  have split : ∀ (l : List (List Txn)) (k : Nat) (hk : k < l.length), l[k] = t :: rest →
      (l.map List.length).sum = ((l.set k rest).map List.length).sum + 1 := by
    intro l
    induction l with
    | nil => exact fun k hk => absurd hk (Nat.not_lt_zero k)
    | cons x l ih =>
      intro k hk head
      cases k with
      | zero =>
        obtain rfl : x = t :: rest := head
        simp only [List.set_cons_zero, List.map_cons, List.sum_cons, List.length_cons]
        omega
      | succ k =>
        have tail := ih k (Nat.lt_of_succ_lt_succ hk) head
        simp only [List.set_cons_succ, List.map_cons, List.sum_cons]
        omega
  have listed := split v.toList i.val (by simp) (by simpa using head)
  rwa [put, Vector.toList_set]

/-- The port has taken what can be taken: the order is kept, and it is settled (R9). -/
theorem serveLines_settles (fuel : Nat) (s : State) (enough : waitingCount s ≤ fuel) (own : LinesOwn s)
    (orderly : Orderly (heldBy s) s) :
    LinesOwn (serveLines fuel s) ∧ Orderly (heldBy (serveLines fuel s)) (serveLines fuel s)
      ∧ Settled (serveLines fuel s) := by
  induction fuel generalizing s with
  | zero =>
    refine ⟨own, orderly, (settled_iff s).2 fun i waits => absurd ?_ waits⟩
    have none : (s.lines.toList.map List.length).sum = 0 := Nat.le_zero.1 enough
    rw [List.sum_eq_zero_iff_forall_eq_nat] at none
    exact List.length_eq_zero_iff.1 (none _ (List.mem_map.2 ⟨s.lines[i], by simp, rfl⟩))
  | succ fuel ih =>
    unfold serveLines
    obtain ⟨none, settled⟩ | ⟨i, n, chosen, ready⟩ := nextReady_spec s
    · rw [none]
      exact ⟨own, orderly, settled⟩
    · rw [chosen]
      obtain ⟨waits, unblocked⟩ := (mem_readyInitiators s i).1 ready
      dsimp only
      split
      · next empty => exact absurd empty waits
      · next t rest head =>
        have mine : t.initiator = i := own i t (head ▸ List.mem_cons_self)
        have taken := take_inOrder t { s with choices := n, lines := put s.lines i rest }
        have fresh : t.initiator ∉ heldBy s ++ waitingBy s := fun mem => by
          rw [(takingBlocked_iff s i).2 (mine ▸ mem)] at unblocked
          cases unblocked
        have kept := taken.passes ⟨orderly.fifo, orderly.full, List.nodup_cons.2 ⟨fresh, orderly.one⟩⟩
        refine ih _ ?_ ?_ kept.1
        · have fewer := sum_put_tail s.lines i head
          unfold waitingCount at enough ⊢
          rw [taken.lines]
          show ((put s.lines i rest).toList.map List.length).sum ≤ fuel
          omega
        · intro j u mem
          rw [taken.lines] at mem
          change u ∈ (put s.lines i rest)[j] at mem
          by_cases here : i = j
          · subst here
            rw [put_self] at mem
            exact own i u (head ▸ List.mem_cons_of_mem t mem)
          · rw [put_of_ne _ _ _ _ here] at mem
            exact own j u mem

theorem serve_coherent {s : State} (own : LinesOwn s) (orderly : Orderly (heldBy s) s) : IntakeCoherent (serve s) := by
  rw [intakeCoherent_iff]
  unfold serve
  split
  · next reset => exact ⟨own, orderly, .inl reset⟩
  · obtain ⟨lines, order, settled⟩ := serveLines_settles (waitingCount s) s (Nat.le_refl _) own orderly
    exact ⟨lines, order, .inr settled⟩

theorem LinesOwn.congr {s t : State} (own : LinesOwn s) (lines : t.lines = s.lines) : LinesOwn t := by
  unfold LinesOwn
  rw [lines]
  exact own

theorem canTake_iff (s : State) (i : Initiator) :
    canTake s i = true ↔ s.ponrst = false ∧ s.lines[i] = [] ∧ takingBlocked s i = false := by
  simp [canTake, and_assoc]

/-- A transaction that cannot be taken waits in its line, and the port stays settled. -/
theorem waits_coherent {s : State} (coherent : IntakeCoherent s) (t : Txn) (cannot : canTake s t.initiator = false) :
    IntakeCoherent { s with lines := put s.lines t.initiator (s.lines[t.initiator] ++ [t]) } := by
  obtain ⟨own, orderly, settled⟩ := (intakeCoherent_iff s).1 coherent
  refine (intakeCoherent_iff _).2 ⟨fun i u mem => ?_, ⟨orderly.fifo, orderly.full, orderly.one⟩, ?_⟩
  · change u ∈ (put s.lines t.initiator (s.lines[t.initiator] ++ [t]))[i] at mem
    by_cases here : t.initiator = i
    · subst here
      rw [put_self] at mem
      obtain mem | last := List.mem_append.1 mem
      · exact own _ u mem
      · rw [List.mem_singleton.1 last]
    · rw [put_of_ne _ _ _ _ here] at mem
      exact own i u mem
  · cases reset : s.ponrst with
    | true => exact .inl rfl
    | false =>
      have before := (settled_iff s).1 (settled.resolve_left (by simp [reset]))
      refine .inr ((settled_iff _).2 fun i waits => ?_)
      change (put s.lines t.initiator (s.lines[t.initiator] ++ [t]))[i] ≠ [] at waits
      show takingBlocked s i = true
      by_cases here : t.initiator = i
      · subst here
        rw [← Bool.not_eq_false]
        intro unblocked
        rw [← Bool.not_eq_true, canTake_iff] at cannot
        refine cannot ⟨reset, ?_, unblocked⟩
        refine Classical.byContradiction fun some_ => ?_
        rw [before _ some_] at unblocked
        cases unblocked
      · rw [put_of_ne _ _ _ _ here] at waits
        exact before i waits

theorem exec_coherent (i : Instr) (s : State) (coherent : IntakeCoherent s) :
    ∃ t, exec i s = .next t ∧ IntakeCoherent t := by
  obtain ⟨own, orderly, settled⟩ := (intakeCoherent_iff s).1 coherent
  generalize answer : exec i s = outcome
  have as := exec_as i s
  rw [answer] at as
  cases as with
  | arrival t =>
    refine ⟨_, rfl, ?_⟩
    unfold arrive
    split
    · next can =>
      have taken := take_inOrder t s
      have fresh : t.initiator ∉ heldBy s ++ waitingBy s := fun mem => by
        obtain ⟨_, _, unblocked⟩ := (canTake_iff s _).1 can
        rw [(takingBlocked_iff s _).2 mem] at unblocked
        cases unblocked
      have kept := taken.passes ⟨orderly.fifo, orderly.full, List.nodup_cons.2 ⟨fresh, orderly.one⟩⟩
      exact serve_coherent (own.congr taken.lines) kept.1
    · next cannot => exact waits_coherent coherent t (Bool.eq_false_iff.2 cannot)
  | event f respected =>
    refine ⟨_, rfl, ?_⟩
    have kept := respected KeepsOrder keepsOrder
    unfold inService
    split
    · exact coherent
    · exact serve_coherent (own.congr kept.lines) (kept.passes orderly).1
  | assertion => exact ⟨_, rfl, (intakeCoherent_iff _).2 ⟨own, ⟨orderly.fifo, orderly.full, orderly.one⟩, .inl rfl⟩⟩
  | release base prio =>
    refine ⟨_, rfl, ?_⟩
    split
    · exact serve_coherent (s := releaseReset base prio s) own
        ⟨Nat.zero_le _, fun some_ => absurd rfl some_, List.nodup_nil⟩
    · exact coherent

theorem aside_coherent {s t : State} (change : Aside s t) (coherent : IntakeCoherent s) : IntakeCoherent t := by
  obtain ⟨own, orderly, settled⟩ := (intakeCoherent_iff s).1 coherent
  refine (intakeCoherent_iff t).2 ⟨own.congr change.lines, ((keepsOrder.aside change).passes orderly).1, ?_⟩
  rw [change.ponrst, Settled, readyInitiators_congr change.lines change.holds change.passWait]
  exact settled

/-- Settles O59: each transaction that is taken, and each event of the part, keeps the order of the holds and the path;
the port then takes what waits until nothing can be taken, each time one transaction less. -/
theorem intakeCoherenceKept : Obligations.IntakeCoherenceKept := fun _ _ coherent taken =>
  step_keeps aside_coherent exec_coherent coherent taken

end Sys2Proof.Intake

/-! PROOFS of O1, O2, O3, O5 to O8 and O60: the block as a machine, the reset pin, and the power-on state. -/

namespace Sys2Proof.Commands

open Sys2Proof Sys2Proof.Machine Sys2Proof.Steps

/-- Settles O1. -/
theorem stepRunsFrontCommand : Obligations.StepRunsFrontCommand := fun c rest s front => by
  unfold step
  rw [front]

theorem step_idle_command {s : State} {c : Instr} (empty : s.pending = []) (idle : idleCommand s = some c) :
    step s = exec c s := by
  simp [step, empty, idle]

theorem step_idle_passes {s : State} (empty : s.pending = []) (idle : idleCommand s = none) :
    step s = .next (idlePasses s) := by
  simp [step, empty, idle]

theorem idleCommand_running {s : State} (running : s.ponrst = false) :
    idleCommand s = (dueEvent s).or (if atTick (s.wallTime + 1) then some .cadenceTick else none) := by
  simp [idleCommand, running]

/-- Settles O2, by the cases of an idle moment: in reset, with an event due, at a tick, and none of these. -/
theorem idleStepPassesTime : Obligations.IdleStepPassesTime := by
  intro s empty
  refine ⟨fun reset => ?_, fun running c due => ?_, fun running none tick => ?_, fun running none noTick => ?_⟩
  · rw [step_idle_passes empty (by simp [idleCommand, reset])]
    simp [idlePasses, reset]
  · exact step_idle_command empty (by rw [idleCommand_running running, due]; rfl)
  · exact step_idle_command empty (by rw [idleCommand_running running, none, tick]; rfl)
  · rw [step_idle_passes empty (by rw [idleCommand_running running, none, noTick]; rfl)]
    simp [idlePasses, nextMicro, running]

/-! ## What every command leaves -/

/-- From `s` to `t` the command queue and the straps stay. -/
structure StrapsStay (s t : State) : Prop where
  pending : t.pending = s.pending
  baseStrap : t.baseStrap = s.baseStrap
  prioStrap : t.prioStrap = s.prioStrap

/-- From `s` to `t` wall time stays too. -/
structure TimeStays (s t : State) : Prop extends StrapsStay s t where
  wallTime : t.wallTime = s.wallTime

theorem StrapsStay.refl (s : State) : StrapsStay s s := ⟨rfl, rfl, rfl⟩

theorem StrapsStay.trans {s t u : State} (h : StrapsStay s t) (k : StrapsStay t u) : StrapsStay s u :=
  ⟨k.pending.trans h.pending, k.baseStrap.trans h.baseStrap, k.prioStrap.trans h.prioStrap⟩

theorem TimeStays.refl (s : State) : TimeStays s s := ⟨.refl s, rfl⟩

theorem TimeStays.trans {s t u : State} (h : TimeStays s t) (k : TimeStays t u) : TimeStays s u :=
  ⟨h.toStrapsStay.trans k.toStrapsStay, k.wallTime.trans h.wallTime⟩

theorem time_of_take {s t : State} (h : TakeOnly s t) : TimeStays s t := ⟨⟨h.pending, h.baseStrap, h.prioStrap⟩, h.wallTime⟩

theorem time_of_fill {s t : State} (h : FillOnly s t) : TimeStays s t := ⟨⟨h.pending, h.baseStrap, h.prioStrap⟩, h.wallTime⟩

theorem time_of_walk {s t : State} (h : WalkOnly s t) : TimeStays s t := ⟨⟨h.pending, h.baseStrap, h.prioStrap⟩, h.wallTime⟩

theorem time_of_switch {s t : State} (h : SwitchOnly s t) : TimeStays s t := ⟨⟨h.pending, h.baseStrap, h.prioStrap⟩, h.wallTime⟩

theorem straps_of_move {s t : State} (h : MoveOnly s t) : StrapsStay s t := ⟨h.pending, h.baseStrap, h.prioStrap⟩

theorem serveLines_time (fuel : Nat) (s : State) : TimeStays s (serveLines fuel s) := by
  induction fuel generalizing s with
  | zero => exact .refl s
  | succ fuel ih =>
    unfold serveLines
    obtain ⟨none, _⟩ | ⟨i, n, chosen, _⟩ := Intake.nextReady_spec s
    · rw [none]
      exact .refl s
    · rw [chosen]
      dsimp only
      split
      · exact ⟨⟨rfl, rfl, rfl⟩, rfl⟩
      · next t rest _ =>
        have popped : TimeStays s { s with choices := n, lines := put s.lines i rest } := ⟨⟨rfl, rfl, rfl⟩, rfl⟩
        exact (popped.trans (time_of_take (take_only t _))).trans (ih _)

theorem serve_time (s : State) : TimeStays s (serve s) := ite_keeps (.refl s) (serveLines_time _ s)

theorem arrive_time (t : Txn) (s : State) : TimeStays s (arrive t s) :=
  ite_keeps ((time_of_take (take_only t s)).trans (serve_time _)) ⟨⟨rfl, rfl, rfl⟩, rfl⟩

theorem inService_time {f : State → State} {s : State} (h : TimeStays s (f s)) : TimeStays s (inService f s) :=
  ite_keeps (.refl s) (h.trans (serve_time _))

theorem inService_straps {f : State → State} {s : State} (h : StrapsStay s (f s)) : StrapsStay s (inService f s) :=
  ite_keeps (.refl s) (h.trans (serve_time _).toStrapsStay)

theorem grant_time (r : Requester) (s : State) : TimeStays s (grant r s) := by
  have issued : ∀ tag own txn (s : State), TimeStays s (issueOwn tag own txn s) := fun _ _ _ _ => ⟨⟨rfl, rfl, rfl⟩, rfl⟩
  have withTag : ∀ (f : Tag → State → State), (∀ tag s, TimeStays s (f tag s)) → TimeStays s (withFreeTag f s) := by
    intro f h
    unfold withFreeTag
    split
    · exact .refl s
    · exact h _ s
  cases r with
  | pass =>
    show TimeStays s (grantPass s)
    unfold grantPass
    split <;> exact ⟨⟨rfl, rfl, rfl⟩, rfl⟩
  | expansion =>
    refine withTag _ fun tag s => ?_
    unfold grantExpansion
    split
    · exact .refl s
    · next r rest _ =>
      have left : TimeStays s (setQueue rest s) := ⟨⟨rfl, rfl, rfl⟩, rfl⟩
      exact (left.trans (issued _ _ _ _)).trans (time_of_walk (walk_only _))
  | fill =>
    refine withTag _ fun tag s => ?_
    unfold grantFill
    split
    · exact .refl s
    · exact (issued _ _ _ s).trans (time_of_fill (BlockInvariants.fillIssued_only _ _))
  | post =>
    refine withTag _ fun tag s => ?_
    unfold grantPost
    split
    · exact .refl s
    · unfold grantEvent
      split <;> exact ⟨⟨rfl, rfl, rfl⟩, rfl⟩
    · unfold grantItem
      split <;> exact ⟨⟨rfl, rfl, rfl⟩, rfl⟩

theorem opportunity_time (s : State) : TimeStays s (opportunity s) := by
  unfold opportunity
  split
  · exact .refl s
  · next r _ =>
    have granted : TimeStays s { s with lastGranted := r } := ⟨⟨rfl, rfl, rfl⟩, rfl⟩
    exact granted.trans (grant_time r _)

theorem tick_straps (s : State) : StrapsStay s (tick s) := by
  have moved : StrapsStay s { s with wallTime := nextTickTime s.wallTime } := ⟨rfl, rfl, rfl⟩
  unfold tick
  exact ite_keeps (moved.trans (straps_of_move (tickSources_only _))) moved

theorem startDue_time (s : State) : TimeStays s (startDue s) := by
  unfold startDue
  split
  · exact .refl s
  · exact time_of_fill (startEntry_only _ s)

theorem completeDue_time (s : State) : TimeStays s (completeDue s) := by
  unfold completeDue
  split
  · exact .refl s
  · exact time_of_fill (endCurrent_only _ _ s)

/-- A command that brings no tick and does not release PONRST leaves the queue, the straps and wall time. -/
theorem exec_time (c : Instr) (s : State) (notRelease : ∀ b p, c ≠ .ponrstRelease b p) (notTick : c ≠ .cadenceTick)
    (notStale : ∀ src, c ≠ .staleLimitExpiry src) : ∃ t, exec c s = .next t ∧ TimeStays s t := by
  cases c with
  | wrstPulse => exact ⟨_, rfl, inService_time (time_of_take (wallReset_only _ s))⟩
  | responseRelay r => exact ⟨_, rfl, inService_time (time_of_take (storePortResponse_only r s))⟩
  | storeResponse linkTag st => exact ⟨_, rfl, inService_time (time_of_take (ownResponse_only linkTag st s))⟩
  | storeOpportunity => exact ⟨_, rfl, inService_time (opportunity_time s)⟩
  | storeTimeout tag => exact ⟨_, rfl, inService_time (ite_keeps (time_of_take (expireTag_only tag s)) (.refl s))⟩
  | syncLimitExpiry p => exact ⟨_, rfl, inService_time (ite_keeps (time_of_take (becomeUnsynced_only p 1 s)) (.refl s))⟩
  | switchLimitExpiry => exact ⟨_, rfl, inService_time (ite_keeps (time_of_switch (expireSwitchLimit_only s)) (.refl s))⟩
  | cadenceTick => exact absurd rfl notTick
  | staleLimitExpiry src => exact absurd rfl (notStale src)
  | fillEntryStart => exact ⟨_, rfl, inService_time (startDue_time s)⟩
  | fillEntryComplete => exact ⟨_, rfl, inService_time (completeDue_time s)⟩
  | ponrstAssert => exact ⟨_, rfl, ⟨rfl, rfl, rfl⟩, rfl⟩
  | ponrstRelease base prio => exact absurd rfl (notRelease base prio)
  | _ => exact ⟨_, rfl, arrive_time _ s⟩

/-- Settles O3: the three rows that move wall time or the straps are looked at by themselves. -/
theorem commandsKeepQueueStrapsAndTime : Obligations.CommandsKeepQueueStrapsAndTime := by
  intro c s
  by_cases release : ∃ b p, c = .ponrstRelease b p
  · obtain ⟨b, p, rfl⟩ := release
    refine ⟨_, rfl, ?_, fun not => absurd rfl (not b p), fun not => absurd rfl (not b p)⟩
    show (if s.ponrst then serve (releaseReset b p s) else s).pending = s.pending
    split
    · exact (serve_time (releaseReset b p s)).pending
    · rfl
  have notRelease : ∀ b p, c ≠ .ponrstRelease b p := fun b p same => release ⟨b, p, same⟩
  by_cases tick : c = .cadenceTick
  · subst tick
    have kept := inService_straps (tick_straps s)
    exact ⟨_, rfl, kept.pending, fun _ => ⟨kept.baseStrap, kept.prioStrap⟩, fun _ not => absurd rfl not⟩
  by_cases stale : ∃ src, c = .staleLimitExpiry src
  · obtain ⟨src, rfl⟩ := stale
    have kept : StrapsStay s (inService (fun s => if staleDue s src then Machine.tick s else s) s) :=
      inService_straps (ite_keeps (tick_straps s) (.refl s))
    exact ⟨_, rfl, kept.pending, fun _ => ⟨kept.baseStrap, kept.prioStrap⟩, fun _ _ not => absurd rfl (not src)⟩
  obtain ⟨t, answer, kept⟩ := exec_time c s notRelease tick fun src same => stale ⟨src, same⟩
  exact ⟨t, answer, kept.pending, fun _ => ⟨kept.baseStrap, kept.prioStrap⟩, fun _ _ _ => kept.wallTime⟩

/-! ## The reset pin -/

/-- Settles O6: after the release with nothing on the lines the port is settled. -/
theorem ponrstAssertAndRelease : Obligations.PonrstAssertAndRelease := by
  intro s base prio
  refine ⟨rfl, fun reset => ⟨releaseReset base prio s, ?_, rfl, fun quiet => ?_⟩, fun released => ?_⟩
  · show Host.Outcome.next (if s.ponrst then _ else s) = _
    rw [if_pos reset]
  · exact serve_of_settled ((Intake.settled_iff _).2 fun i waits => absurd (quiet i) waits)
  · show Host.Outcome.next (if s.ponrst then _ else s) = _
    rw [released]
    rfl

/-- While PONRST is asserted, an arrival waits, the pin may be asserted again, and nothing else happens (R164). -/
inductive InReset (s : State) : State → Prop where
  | waits (lines : Vector (List Txn) 16) : InReset s { s with lines := lines }
  | stays : InReset s s
  | asserted : InReset s (assertReset s)

theorem arrive_inReset {s : State} (reset : s.ponrst = true) (t : Txn) : InReset s (arrive t s) := by
  rw [arrive_waits (by simp [canTake, reset])]
  exact .waits _

theorem inService_inReset {s : State} (reset : s.ponrst = true) (f : State → State) : InReset s (inService f s) := by
  unfold inService
  rw [if_pos reset]
  exact .stays

theorem exec_inReset {s : State} (reset : s.ponrst = true) (c : Instr) (notRelease : ∀ b p, c ≠ .ponrstRelease b p) :
    ∃ t, exec c s = .next t ∧ InReset s t := by
  cases c with
  | wrstPulse => exact ⟨_, rfl, inService_inReset reset _⟩
  | responseRelay r => exact ⟨_, rfl, inService_inReset reset _⟩
  | storeResponse linkTag st => exact ⟨_, rfl, inService_inReset reset _⟩
  | storeOpportunity => exact ⟨_, rfl, inService_inReset reset _⟩
  | storeTimeout tag => exact ⟨_, rfl, inService_inReset reset _⟩
  | syncLimitExpiry p => exact ⟨_, rfl, inService_inReset reset _⟩
  | switchLimitExpiry => exact ⟨_, rfl, inService_inReset reset _⟩
  | cadenceTick => exact ⟨_, rfl, inService_inReset reset _⟩
  | staleLimitExpiry src => exact ⟨_, rfl, inService_inReset reset _⟩
  | fillEntryStart => exact ⟨_, rfl, inService_inReset reset _⟩
  | fillEntryComplete => exact ⟨_, rfl, inService_inReset reset _⟩
  | ponrstAssert => exact ⟨_, rfl, .asserted⟩
  | ponrstRelease base prio => exact absurd rfl (notRelease base prio)
  | _ => exact ⟨_, rfl, arrive_inReset reset _⟩

/-- Settles O7. -/
theorem nothingMovesInReset : Obligations.NothingMovesInReset := by
  intro c s t reset notRelease answer
  obtain ⟨u, next, inReset⟩ := exec_inReset reset c notRelease
  obtain rfl : u = t := Host.Outcome.next.inj (next.symm.trans answer)
  cases inReset with
  | waits => exact ⟨reset, rfl, rfl, rfl, rfl, rfl, rfl, id, fun _ => id⟩
  | stays => exact ⟨reset, rfl, rfl, rfl, rfl, rfl, rfl, id, fun _ => id⟩
  | asserted =>
    exact ⟨rfl, rfl, rfl, rfl, rfl, rfl, rfl, fun _ => rfl, fun m _ => Vector.getElem_replicate m.isLt⟩

/-- Settles O8: each of the five rows is an arrival. -/
theorem arrivalWaitsInLine : Obligations.ArrivalWaitsInLine := by
  intro s t c cannot row
  have arrival : exec c s = .next (arrive t s) := by
    simp only [List.mem_cons, List.not_mem_nil, or_false] at row
    obtain rfl | rfl | rfl | rfl | rfl := row <;> rfl
  rw [arrival, arrive_waits cannot]

/-! ## The power-on state -/

/-- Settles O5: the fields of the power-on state, and its parameters from the power-on words of the shadow. -/
theorem powerOnRegisters : Obligations.PowerOnRegisters := by
  refine ⟨rfl, ?_⟩
  rintro base prio s rfl
  have consoles : ∀ i : Initiator, i ≠ 15 → (decide (i.val < 15) && (shadowWord [] 0x18).getLsbD i.val) = true := by
    decide
  have console : ∀ i : Initiator, i ≠ 15 → isConsole (State.powerOn base prio) i = true := fun i ingest => by
    show (isPriority _ i || _) = true
    rw [Bool.or_eq_true]
    exact .inr (consoles i ingest)
  have panels : ∀ p : PanelId, Geometry.powerOn.panels[p] = { base := 0, pitch := 7680, scanout := 15 } := by decide
  refine ⟨rfl, rfl, rfl, fun m => ?_, console, fun w => ?_, rfl, rfl, rfl, rfl, rfl, rfl, rfl, fun p => ⟨panels p, ?_⟩,
    fun src => ⟨?_, ?_⟩, rfl, rfl, fun t => ?_, rfl, rfl, rfl, rfl, rfl, rfl, rfl, rfl, rfl, rfl, rfl, rfl, rfl, ?_, ?_, ?_,
    ?_⟩
  · exact Vector.getElem_replicate m.isLt
  · exact Vector.getElem_replicate w.isLt
  · simp [State.powerOn]
  · exact Vector.getElem_replicate src.isLt
  · exact Vector.getElem_replicate src.isLt
  · exact Vector.getElem_replicate t.isLt
  · show consumerIndex [] = 0
    decide
  · show storeTimeout [] = 2000
    decide
  · show switchLimit [] = 100
    decide
  · show borderWidth [] = 8
    decide

/-- Settles O60: at reset every list is empty, no source is ENABLED, no commit is in flight and every panel uses ACTIVE. -/
theorem invariantsHoldAtReset : Obligations.InvariantsHoldAtReset := by
  rintro base prio s rfl
  refine ⟨BlockInvariants.queueBounds_empty rfl, Commits.commitCoherent_powerOn base prio,
    Fills.fillCoherent_powerOn base prio, BlockInvariants.sourcesCoherent_powerOn base prio,
    (RingOrder.ringOrdered_iff _).2 (RingOrder.ringIn_empty rfl rfl rfl), rfl, ?_⟩
  refine (Intake.intakeCoherent_iff _).2 ⟨fun i t mem => ?_, ⟨Nat.zero_le _, fun some_ => absurd rfl some_, List.nodup_nil⟩,
    .inr ((Intake.settled_iff _).2 fun i waits => absurd ?_ waits)⟩
  · simp [State.powerOn] at mem
  · simp [State.powerOn]

end Sys2Proof.Commands

/-! PROOFS of O9, O10, O11, O13, O14 and O16: the traffic that the ingest port takes. -/

namespace Sys2Proof.Traffic

open Sys2Proof Sys2Proof.Machine Sys2Proof.Steps Sys2Proof.Intake

/-! ## What is taken when a transaction arrives -/

theorem arrive_passes {s : State} {t : Txn} (h : Arrives s t .pass) : arrive t s = serve (enterPass t s) := by
  rw [arrive_taken h.taken, take, h.wellFormed]
  dsimp only
  rw [h.cls]

theorem arrive_scanout {s : State} {t : Txn} {p : PanelId} (h : Arrives s t (.scanoutRead p)) :
    arrive t s = serve (enterPass t (snoop p t s)) := by
  rw [arrive_taken h.taken, take, h.wellFormed]
  dsimp only
  rw [h.cls]

theorem arrive_aperture {s : State} {t : Txn} {src : SourceId} {a : Aperture} (h : Arrives s t (.apertureWrite src a)) :
    arrive t s = serve (takeAperture t src a s) := by
  rw [arrive_taken h.taken, take, h.wellFormed]
  dsimp only
  rw [h.cls]

/-- A port that was settled stays so after a change elsewhere and the entry of a transaction into the path. -/
theorem serve_enterPass {s u : State} (settled : Settled s) (t : Txn) (lines : u.lines = s.lines) (holds : u.holds = s.holds)
    (wait : u.passWait = s.passWait) : serve (enterPass t u) = enterPass t u :=
  serve_of_settled (ClaimRequests.settled_enterPass ((readyInitiators_congr lines holds wait).trans settled) t)

/-- Settles O9. -/
theorem passEntersPath : Obligations.PassEntersPath := by
  intro s t arrives
  have answer : exec (.pass t) s = .next (enterPass t s) := by
    show Host.Outcome.next (arrive t s) = _
    rw [arrive_passes arrives, serve_enterPass arrives.settled t rfl rfl rfl]
  refine ⟨fun room none => ?_, fun noRoom => ⟨?_, ?_⟩⟩
  · rw [answer, enterPass_room t room none]
  · rw [answer, enterPass]
    exact congrArg Host.Outcome.next (if_neg noRoom)
  · simp [canTake, takingBlocked]

/-! ## Malformed transactions -/

/-- The cases in which a malformed transaction is answered FAULT (R4). -/
theorem malformedFaults_iff (s : State) (t : Txn) (reason : Nat) : malformedFaults s t reason = true ↔
    reason = 1 ∨ touches t (controlBase s) (controlBase s + 65536) = true
      ∨ ∃ (src : SourceId) (a : Aperture), s.apertures[src] = some a ∧ touches t a.base (apertureEnd a) = true := by
  have working : (s.apertures.toList.any fun a => match a with
      | some a => touches t a.base (apertureEnd a)
      | none => false) = true ↔
      ∃ (src : SourceId) (a : Aperture), s.apertures[src] = some a ∧ touches t a.base (apertureEnd a) = true := by
    rw [List.any_eq_true]
    constructor
    · rintro ⟨entry, mem, touched⟩
      cases entry with
      | none => cases touched
      | some a =>
        obtain ⟨k, inside, at_k⟩ := List.getElem_of_mem mem
        have bound : k < 32 := by simpa using inside
        exact ⟨⟨k, bound⟩, a, by simpa using at_k, touched⟩
    · rintro ⟨src, a, latched, touched⟩
      exact ⟨some a, latched ▸ by simp, touched⟩
  rw [← working]
  simp only [malformedFaults, Bool.or_eq_true, beq_iff_eq, or_assoc]
  rfl

/-- Settles O10. -/
theorem malformedAnsweredOrPassed : Obligations.MalformedAnsweredOrPassed := by
  intro s t reason
  refine ⟨?_, fun settled taken malformed => ?_⟩
  · unfold malformedReason
    simp only [Nat.dvd_iff_mod_eq_zero, ne_eq]
  · have answer : exec (.malformed t) s = .next (serve (takeMalformed t reason s)) := by
      show Host.Outcome.next (arrive t s) = _
      rw [arrive_taken taken, take, malformed]
    rw [← malformedFaults_iff]
    refine ⟨fun faults => ?_, fun passes => ?_⟩
    · rw [answer, takeMalformed, if_pos faults]
      exact congrArg Host.Outcome.next (serve_same settled rfl rfl rfl)
    · rw [answer, takeMalformed, if_neg passes, serve_enterPass settled t rfl rfl rfl]

/-! ## Scanout reads -/

/-- The sync state that a scanout read leaves (R30). -/
theorem syncAfterRead_state (st : SyncState) (zero last : Bool) : (syncAfterRead st zero last).1
    = if zero = true then .scanning else if st = .scanning ∧ last = true then .waiting else st := by
  cases st <;> cases zero <;> cases last <;> rfl

/-- Which scanout reads are retrace events (R30). -/
theorem syncAfterRead_retrace (st : SyncState) (zero last : Bool) :
    (syncAfterRead st zero last).2 = true ↔ st = .scanning ∧ zero = false ∧ last = true := by
  cases st <;> cases zero <;> cases last <;> simp [syncAfterRead]

/-- With no commit in flight, or the panel switched, a retrace event does not switch it (R111). -/
theorem switchPanel_notDue {end_ : CommitState} {outcome : CommandOutcome} {p : PanelId} {s : State}
    (notDue : ¬ (s.commit.state = .inFlight ∧ s.commit.switched[p] = false)) :
    switchPanel end_ outcome p s = s := by
  have cannot : ¬ canSwitch s p = true := fun can => by
    obtain ⟨flying, _, unswitched⟩ := (Commits.canSwitch_iff s p).1 can
    exact notDue ⟨flying, unswitched⟩
  unfold switchPanel
  split
  · rfl
  · rw [if_neg cannot]

/-- The panel's record after a read, where no switch is due (R30). -/
theorem snoop_notDue {s : State} {t : Txn} {p : PanelId}
    (notDue : ¬ (s.commit.state = .inFlight ∧ s.commit.switched[p] = false ∧ s.sync[p].state = .scanning
      ∧ isLineZero s p t = false ∧ isLastLineStart s p t = true)) :
    snoop p t s = setSync p
      { state := (syncAfterRead s.sync[p].state (isLineZero s p t) (isLastLineStart s p t)).1, lastRead := s.wallTime } s := by
  unfold snoop
  dsimp only
  split
  · next retrace =>
    obtain ⟨scanning, line, last⟩ := (syncAfterRead_retrace _ _ _).1 retrace
    exact switchPanel_notDue fun due => notDue ⟨due.1, due.2, scanning, line, last⟩
  · rfl

/-- Settles O11. -/
theorem scanoutReadSnooped : Obligations.ScanoutReadSnooped := by
  intro s t p new arrives moves notDue
  show Host.Outcome.next (arrive t s) = _
  rw [arrive_scanout arrives, snoop_notDue notDue, syncAfterRead_state, ← moves]
  exact congrArg Host.Outcome.next (serve_enterPass arrives.settled t rfl rfl rfl)

/-! ## Expansion into the queue -/

theorem insertItem_twice (i : PostItem) (l : List PostItem) : insertItem i (insertItem i l) = insertItem i l := by
  induction l with
  | nil => simp [insertItem]
  | cons j rest ih =>
    by_cases before : itemOffset i < itemOffset j
    · simp [insertItem, before]
    · by_cases same : itemOffset i = itemOffset j
      · simp [insertItem, same]
      · simp [insertItem, before, same, ih]

/-- The state once these records have joined the queue (R90, R102). -/
def queued (s : State) (rs : List Record) : State :=
  { s with queue := s.queue ++ rs, poster := flaggedIf (!rs.isEmpty) .occupancy s.poster }

theorem queued_nil (s : State) : queued s [] = s := by
  unfold queued
  rw [List.append_nil]
  rfl

theorem enqueue_queued (s : State) (rs : List Record) (r : Record) : enqueue r (queued s rs) = queued s (rs ++ [r]) := by
  have flags : flaggedIf true .occupancy (flaggedIf (!rs.isEmpty) .occupancy s.poster)
      = flaggedIf true .occupancy s.poster := by
    cases rs with
    | nil => rfl
    | cons r rest => simp [flaggedIf, insertItem_twice]
  show setQueue (s.queue ++ rs ++ [r]) (queued s rs) = _
  have some_ : (rs ++ [r]).isEmpty = false := by simp
  unfold queued setQueue flag flagIf
  rw [some_, List.append_assoc]
  exact congrArg (fun p => { s with queue := s.queue ++ (rs ++ [r]), poster := p }) flags

/-- What expansion makes depends on the layouts, the gates and the geometry, and not on the queue. -/
theorem nextRecord_queued (s : State) (rs : List Record) (run : Run) (p : Position) :
    nextRecord (queued s rs) run p = nextRecord s run p := rfl

theorem share_queued (s : State) (rs : List Record) (src : SourceId) :
    share (queued s rs) src = share s src + rs.countP fun r => r.source == src := List.countP_append

/-! ## What a record is -/

/-- What a record comes from: a window and a layout version, and a lead piece of one row of its pixels (R82). -/
structure MadeFrom (s : State) (run : Run) (w : WindowId) (r : Record) (v : Copy × Layout) (y minX : Nat) (d : DestPixel)
    (ds : List DestPixel) : Prop where
  version : v ∈ versions s
  lead : leadPiece (rowPixels s v.1 v.2 run w y minX) = d :: ds
  record : r = makeRecord s run w d (d :: ds)

theorem firstPiece_lead {rows : List (List DestPixel)} {d : DestPixel} {ds : List DestPixel}
    (first : firstPiece rows = d :: ds) : ∃ row ∈ rows, leadPiece row = d :: ds := by
  induction rows with
  | nil => cases first
  | cons row rows ih =>
    have later : firstPiece rows = d :: ds → ∃ row' ∈ row :: rows, leadPiece row' = d :: ds := fun tail => by
      obtain ⟨row', mem, lead⟩ := ih tail
      exact ⟨row', List.mem_cons_of_mem _ mem, lead⟩
    unfold firstPiece at first
    split at first
    · exact later first
    · exact ⟨_, List.mem_cons_self, first⟩
    · next tail =>
      split at first
      · exact ⟨_, List.mem_cons_self, first⟩
      · exact later (tail.trans first)

theorem rowRecord_made {s : State} {run : Run} {w : WindowId} {y minX : Nat} {r : Record} {p : Position}
    (made : rowRecord s run w y minX = some (r, p)) : ∃ v d ds, MadeFrom s run w r v y minX d ds := by
  unfold rowRecord at made
  split at made
  · cases made
  · next d ds first =>
    obtain ⟨row, mem, lead⟩ := firstPiece_lead first
    obtain ⟨v, version, rfl⟩ := List.mem_map.1 mem
    exact ⟨v, d, ds, version, lead, (Prod.mk.inj (Option.some.inj made)).1.symm⟩

theorem nextRecord_made {s : State} {run : Run} {start p : Position} {r : Record}
    (made : nextRecord s run start = some (r, p)) : ∃ w v y minX d ds, MadeFrom s run w r v y minX d ds := by
  unfold nextRecord at made
  obtain ⟨w, _, inWindow⟩ := List.exists_of_findSome?_eq_some made
  split at inWindow
  · cases inWindow
  obtain ⟨y, _, inRow⟩ := List.exists_of_findSome?_eq_some inWindow
  split at inRow
  · split at inRow
    · cases inRow
    · obtain ⟨v, d, ds, from_⟩ := rowRecord_made inRow
      exact ⟨w, v, y, _, d, ds, from_⟩
  · obtain ⟨v, d, ds, from_⟩ := rowRecord_made inRow
    exact ⟨w, v, y, _, d, ds, from_⟩

theorem nextRecord_source {s : State} {run : Run} {start p : Position} {r : Record}
    (made : nextRecord s run start = some (r, p)) : r.source = run.source := by
  obtain ⟨_, _, _, _, _, _, from_⟩ := nextRecord_made made
  rw [from_.record]
  rfl

/-! ## The pixels of a record (O16) -/

/-- Where a destination pixel lies (R76, R77). -/
def LiesAt (g : Geometry) (y : Nat) (d : DestPixel) : Prop := locate g d.x y = some (d.panel, d.ox, d.oy)

theorem destPixel_lies {s : State} {c : Copy} {l : Layout} {run : Run} {w : Window} {x y : Nat} {d : DestPixel}
    (made : destPixel s c l run w x y = some d) : LiesAt s.geometry y d ∧ s.selection[d.panel] = c := by
  unfold destPixel at made
  split at made
  · cases made
  · next p ox oy found =>
    split at made
    · next shown =>
      cases made
      exact ⟨found, shown.1⟩
    · cases made

theorem mem_rowPixels {s : State} {c : Copy} {l : Layout} {run : Run} {w : WindowId} {y minX : Nat} {d : DestPixel}
    (mem : d ∈ rowPixels s c l run w y minX) :
    isCandidate run s.gates[w] l.records[w] = true ∧ LiesAt s.geometry y d ∧ s.selection[d.panel] = c := by
  unfold rowPixels at mem
  split at mem
  · cases mem
  · next b box =>
    have candidate : isCandidate run s.gates[w] l.records[w] = true := by
      unfold destBox at box
      split at box
      · assumption
      · cases box
    split at mem
    · obtain ⟨x, _, made⟩ := List.mem_filterMap.1 mem
      exact ⟨candidate, destPixel_lies made⟩
    · cases mem

theorem leadPiece_subset {row : List DestPixel} : ∀ d ∈ leadPiece row, d ∈ row := by
  induction row with
  | nil => exact fun _ mem => mem
  | cons d rest ih =>
    intro e mem
    unfold leadPiece at mem
    split at mem
    · exact List.mem_singleton.1 mem ▸ List.mem_cons_self
    · split at mem
      · exact List.mem_singleton.1 mem ▸ List.mem_cons_self
      · next tail =>
        split at mem
        · obtain rfl | mem := List.mem_cons.1 mem
          · exact List.mem_cons_self
          · exact List.mem_cons_of_mem _ (ih e (tail ▸ mem))
        · exact List.mem_singleton.1 mem ▸ List.mem_cons_self

theorem locate_some {g : Geometry} {x y ox oy : Nat} {p : PanelId} (found : locate g x y = some (p, ox, oy)) :
    ox = x % stepX g ∧ p.val = y / stepY g * g.columns + x / stepX g := by
  unfold locate at found
  split at found
  · cases found
  · dsimp only at found
    split at found
    · cases found
    · split at found
      · cases found
        exact ⟨rfl, rfl⟩
      · cases found

/-- Neighbouring wall columns on one panel are neighbouring columns of the panel. -/
theorem next_column {g : Geometry} {y : Nat} {d e : DestPixel} (hd : LiesAt g y d) (he : LiesAt g y e)
    (next : e.x = d.x + 1) (panel : e.panel = d.panel) : e.ox = d.ox + 1 := by
  obtain ⟨dox, dp⟩ := locate_some hd
  obtain ⟨eox, ep⟩ := locate_some he
  rw [panel, next] at ep
  have column : (d.x + 1) / stepX g = d.x / stepX g := by omega
  have split := Nat.div_add_mod d.x (stepX g)
  have split_next := Nat.div_add_mod (d.x + 1) (stepX g)
  rw [column] at split_next
  rw [eox, dox, next]
  omega

/-- A lead piece begins with the row's first pixel and ends with its 256-byte block at the latest (R82). -/
theorem leadPiece_in_block {g : Geometry} {y : Nat} (row : List DestPixel) (lies : ∀ d ∈ row, LiesAt g y d)
    {d : DestPixel} {ds : List DestPixel} (lead : leadPiece row = d :: ds) :
    d.ox % 64 + (d :: ds).length ≤ 64 := by
  induction row generalizing d ds with
  | nil => cases lead
  | cons first rest ih =>
    unfold leadPiece at lead
    split at lead
    · cases lead
      simp only [List.length_cons, List.length_nil]
      omega
    · next notLast =>
      split at lead
      · cases lead
        simp only [List.length_cons, List.length_nil]
        omega
      · next e es tail =>
        split at lead
        · next adjoins =>
          cases lead
          have block := ih (fun d mem => lies d (List.mem_cons_of_mem _ mem)) tail
          have mem : e ∈ rest := leadPiece_subset e (tail ▸ List.mem_cons_self)
          have column := next_column (lies _ List.mem_cons_self) (lies e (List.mem_cons_of_mem _ mem)) adjoins.1 adjoins.2
          simp only [List.length_cons] at block ⊢
          omega
        · cases lead
          simp only [List.length_cons, List.length_nil]
          omega

theorem layoutOf_version {s : State} {v : Copy × Layout} {p : PanelId} (version : v ∈ versions s)
    (selected : s.selection[p] = v.1) : layoutOf s p = v.2 := by
  unfold versions at version
  unfold layoutOf
  split at version
  · obtain rfl := List.mem_singleton.1 version
    rw [selected]
  · next l next =>
    obtain rfl | mem := List.mem_cons.1 version
    · rw [selected]
    · obtain rfl := List.mem_singleton.1 mem
      rw [selected, next]
      rfl

/-- The block of a pixel's address depends on its column alone, where the panel is aligned (R24). -/
theorem pixelAddress_block {g : Geometry} {p : PanelId} {ox oy : Nat} (base : g.panels[p].base % 256 = 0)
    (pitch : g.panels[p].pitch % 256 = 0) : (pixelAddress g p ox oy).toNat % 256 = 4 * (ox % 64) := by
  have aligned : (oy * g.panels[p].pitch) % 256 = 0 := by rw [Nat.mul_mod, pitch, Nat.mul_zero, Nat.zero_mod]
  simp only [pixelAddress, BitVec.toNat_ofNat]
  rw [Nat.mod_mod_of_dvd _ (by decide : (256 : Nat) ∣ 2 ^ 40)]
  generalize oy * g.panels[p].pitch = line at aligned
  generalize g.panels[p].base = start at base
  omega

/-- Settles O16: a record is a lead piece of one row of a window's destination pixels in the version its panel uses. -/
theorem recordsAreSound : Obligations.RecordsAreSound := by
  intro s run start p r made
  obtain ⟨w, v, y, minX, d, ds, version, lead, rfl⟩ := nextRecord_made made
  have pixels : ∀ e ∈ rowPixels s v.1 v.2 run w y minX, LiesAt s.geometry y e := fun e mem => (mem_rowPixels mem).2.1
  have first : d ∈ rowPixels s v.1 v.2 run w y minX := leadPiece_subset d (lead ▸ List.mem_cons_self)
  obtain ⟨candidate, _, selected⟩ := mem_rowPixels first
  have layout := layoutOf_version version selected
  have block := leadPiece_in_block _ pixels lead
  simp only [isCandidate, Bool.and_eq_true, beq_iff_eq] at candidate
  obtain ⟨⟨⟨⟨⟨shown, effective⟩, opened⟩, _⟩, _⟩, _⟩ := candidate
  have length : (makeRecord s run w d (d :: ds)).pixels.length = (d :: ds).length := List.length_map _
  have some_ : 1 ≤ (d :: ds).length := Nat.succ_le_succ (Nat.zero_le _)
  refine ⟨rfl, rfl, opened, ?_, ?_, ?_, ?_, fun base pitch => ?_⟩
  · exact (congrArg (fun l : Layout => l.records[w].window.state) layout).trans shown
  · exact (congrArg (fun l : Layout => l.records[w].effective) layout).trans effective
  · rw [length]
    exact some_
  · rw [length]
    omega
  · rw [length]
    have address := pixelAddress_block (g := s.geometry) (p := d.panel) (ox := d.ox) (oy := d.oy) base pitch
    show (pixelAddress s.geometry d.panel d.ox d.oy).toNat % 256 + _ ≤ 256
    omega

/-! ## Aperture writes (O13, O14) -/

theorem admissible_iff (s : State) (src : SourceId) : admissible s src = true ↔
    s.queue.length < Config.queueCapacity ∧ share s src < Config.shareLimit := by
  simp [admissible]

/-- Once these records of a source have joined, the next of it is admitted while there is room for one more. -/
theorem admissible_queued {s : State} {rs : List Record} {src : SourceId} (same : ∀ r ∈ rs, r.source = src) :
    admissible (queued s rs) src = true ↔
      s.queue.length + rs.length < Config.queueCapacity ∧ share s src + rs.length < Config.shareLimit := by
  have all : rs.countP (fun r => r.source == src) = rs.length :=
    List.countP_eq_length.2 fun r mem => beq_iff_eq.2 (same r mem)
  rw [admissible_iff, share_queued, all]
  show (s.queue ++ rs).length < _ ∧ _ ↔ _
  rw [List.length_append]

/-- Expansion admits the offers one after another while there is room, and stops at the first that is refused (R84, R91). -/
theorem expandFrom_offers (s : State) (run : Run) (fuel : Nat) (place : Position) (before : List Record)
    (own : ∀ r ∈ before, r.source = run.source) :
    (∀ offers, offersFrom s run fuel place = offers →
      (offers ≠ [] → s.queue.length + before.length + offers.length ≤ Config.queueCapacity
        ∧ share s run.source + before.length + offers.length ≤ Config.shareLimit) →
      expandFrom fuel run place (queued s before) = (queued s (before ++ offers.map (·.1)), .complete))
    ∧ (∀ admitted r p rest, offersFrom s run fuel place = admitted ++ (r, p) :: rest →
      (admitted ≠ [] → s.queue.length + before.length + admitted.length ≤ Config.queueCapacity
        ∧ share s run.source + before.length + admitted.length ≤ Config.shareLimit) →
      ¬ (s.queue.length + before.length + admitted.length < Config.queueCapacity
        ∧ share s run.source + before.length + admitted.length < Config.shareLimit) →
      expandFrom fuel run place (queued s before) = (queued s (before ++ admitted.map (·.1)), .refused r p)) := by
  induction fuel generalizing place before with
  | zero =>
    refine ⟨fun offers listed _ => ?_, fun admitted r p rest listed => ?_⟩
    · obtain rfl : [] = offers := listed
      rw [List.map_nil, List.append_nil]
      rfl
    · cases admitted <;> cases listed
  | succ fuel ih =>
    unfold offersFrom expandFrom
    rw [nextRecord_queued]
    cases made : nextRecord s run place with
    | none =>
      refine ⟨fun offers listed _ => ?_, fun admitted r p rest listed => ?_⟩
      · obtain rfl : [] = offers := listed
        rw [List.map_nil, List.append_nil]
      · cases admitted <;> cases listed
    | some offer =>
      obtain ⟨r0, p0⟩ := offer
      have source := nextRecord_source made
      have own' : ∀ r ∈ before ++ [r0], r.source = run.source := fun r mem => by
        obtain mem | last := List.mem_append.1 mem
        · exact own r mem
        · exact List.mem_singleton.1 last ▸ source
      obtain ⟨complete, refused⟩ := ih (placeAfter r0 p0) (before ++ [r0]) own'
      have longer : (before ++ [r0]).length = before.length + 1 := by simp
      rw [longer] at complete refused
      have test := admissible_queued (s := s) own
      have joined : ∀ rs, before ++ [r0] ++ rs = before ++ r0 :: rs := fun rs => by simp
      dsimp only
      rw [source]
      refine ⟨fun offers listed room => ?_, fun admitted r p rest listed room noRoom => ?_⟩
      · subst listed
        obtain ⟨queue, shares⟩ := room (List.cons_ne_nil _ _)
        rw [List.length_cons] at queue shares
        rw [if_pos (test.2 ⟨by omega, by omega⟩), enqueue_queued, complete _ rfl fun _ => ⟨by omega, by omega⟩, joined]
        rfl
      · cases admitted with
        | nil =>
          obtain ⟨⟨rfl, rfl⟩, _⟩ := by simpa using listed
          rw [if_neg (fun admitted => noRoom (test.1 admitted)), List.map_nil, List.append_nil]
        | cons head tail =>
          obtain ⟨rfl, tailed⟩ := List.cons.inj listed
          obtain ⟨queue, shares⟩ := room (List.cons_ne_nil _ _)
          rw [List.length_cons] at queue shares noRoom
          rw [if_pos (test.2 ⟨by omega, by omega⟩), enqueue_queued,
            refused tail r p rest tailed (fun _ => ⟨by omega, by omega⟩) (fun less => noRoom ⟨by omega, by omega⟩), joined]
          rfl

theorem queueCapacity_eq : Config.queueCapacity = 256 := rfl

theorem shareLimit_eq : Config.shareLimit = 64 := rfl

/-- A run whose records all find room joins them to the queue. -/
theorem expandStretch_complete {s : State} {run : Run} {rs : List Record} (records : rs = runRecords s run)
    (shares : share s run.source + rs.length ≤ 64) (room : s.queue.length + rs.length ≤ 256) :
    expandStretch run .first s = (queued s rs, .complete) := by
  have length : rs.length = (runOffers s run).length := by rw [records, ← runOffers_records, List.length_map]
  have expanded := (expandFrom_offers s run (Config.shareLimit + 1) .first [] (fun _ mem => by cases mem)).1 _ rfl
    fun _ => ⟨by
      rw [queueCapacity_eq]
      show _ + 0 + (runOffers s run).length ≤ _
      omega, by
      rw [shareLimit_eq]
      show _ + 0 + (runOffers s run).length ≤ _
      omega⟩
  rw [queued_nil] at expanded
  exact expanded.trans (by rw [records, ← runOffers_records]; rfl)

/-- Settles O13. -/
theorem apertureWriteExpanded : Obligations.ApertureWriteExpanded := by
  intro s t src a rs u arrives notStart records shares room same
  have expanded : arrive t s = serve (finishAperture t src (queued s rs)) := by
    rw [arrive_aperture arrives, takeAperture, if_neg notStart, expandNew, expandStretch_complete records shares room]
    rfl
  obtain rfl : u = queued s rs := same
  refine ⟨fun divert => ?_, fun copy => ?_⟩
  · show Host.Outcome.next (arrive t s) = _
    have mode : apertureMode (queued s rs).shadow src = .divert := divert
    rw [expanded, finishAperture, mode]
    exact congrArg Host.Outcome.next (serve_same arrives.settled rfl rfl rfl)
  · show Host.Outcome.next (arrive t s) = _
    have mode : apertureMode (queued s rs).shadow src = .copy := copy
    rw [expanded, finishAperture, mode]
    exact congrArg Host.Outcome.next (serve_enterPass arrives.settled t rfl rfl rfl)

theorem settled_finishAperture {s u : State} (settled : Settled s) (t : Txn) (src : SourceId) (lines : u.lines = s.lines)
    (holds : u.holds = s.holds) (wait : u.passWait = s.passWait) :
    serve (finishAperture t src u) = finishAperture t src u := by
  unfold finishAperture
  split
  · exact serve_same settled lines holds wait
  · exact serve_enterPass settled t lines holds wait

/-- A write more that is held leaves the port settled. -/
theorem settled_held {s u : State} (settled : Settled s) (w : Held) (lines : u.lines = s.lines)
    (holds : u.holds = s.holds ++ [w]) (wait : u.passWait = s.passWait) : Settled u := by
  rw [settled_iff] at settled ⊢
  intro i waits
  rw [lines] at waits
  have blocked := settled i waits
  simp only [takingBlocked, Bool.or_eq_true, holds, wait, List.any_append] at blocked ⊢
  exact blocked.imp_left .inl

theorem put_same {α : Type} {n : Nat} (v : Vector α n) (i : Fin n) : put v i v[i] = v := by
  simp [put]

/-- A refused LIVE record: the flag is set, and the overrun is reported where it was clear (R95). -/
theorem liveOverrun_eq (i : Initiator) (run : Run) (r : Record) {u : State} (within : u.queue.length ≤ 256) :
    liveOverrun i run r u = { u with
      overrun := put u.overrun run.source true
      poster := if u.overrun[run.source] = true then u.poster else
        handedOver u.shadow u.wallTime (evLiveOverrun run.source i (if u.queue.length = 256 then 1 else 2)
          run.line r.window r.panel) u.poster } := by
  unfold liveOverrun
  split
  · next set =>
    have flags : put u.overrun run.source true = u.overrun := by
      rw [← set]
      exact put_same _ _
    rw [flags]
  · have reason : refusalReason u = if u.queue.length = 256 then 1 else 2 := by
      unfold refusalReason
      rw [queueCapacity_eq]
      by_cases full : u.queue.length = 256
      · simp [full]
      · rw [if_neg (by omega), if_neg full]
    rw [reason]
    rfl

/-- Settles O14. -/
theorem apertureWriteHeldOrOverrun : Obligations.ApertureWriteHeldOrOverrun := by
  intro s u t src a run admitted rest r p arrives notStart decoded offers room full same
  have source : run.source = src := by rw [decoded]; rfl
  have expanded : expandStretch run .first s = (u, .refused r p) := by
    have refused := (expandFrom_offers s run (Config.shareLimit + 1) .first [] (fun _ mem => by cases mem)).2 admitted r p rest
      offers (fun some_ => by
        obtain ⟨shares, queue⟩ := room some_
        rw [source]
        exact ⟨queue, shares⟩) (fun less => by
        rw [source, queueCapacity_eq, shareLimit_eq, List.length_nil] at less
        omega)
    rw [queued_nil] at refused
    refine refused.trans ?_
    have empty : (admitted.map (·.1)).isEmpty = admitted.isEmpty := by cases admitted <;> rfl
    rw [same, List.nil_append, queued, empty]
  have taken : arrive t s = serve (expandNew t run s) := by
    rw [arrive_aperture arrives, takeAperture, if_neg notStart, ← decoded]
  have lines : u.lines = s.lines := by rw [same]
  have holds : u.holds = s.holds := by rw [same]
  have wait : u.passWait = s.passWait := by rw [same]
  refine ⟨fun stallable => ?_, fun live => ?_⟩
  · have cls : run.cls = .stallable := by rw [decoded]; exact stallable
    have answer : exec (.apertureWrite t) s = .next { u with
        holds := s.holds ++ [{ txn := t, run := run, waiting := r, place := p, latched := false }] } := by
      show Host.Outcome.next (arrive t s) = _
      rw [taken, expandNew, expanded]
      dsimp only
      rw [cls]
      dsimp only
      rw [holds]
      exact congrArg Host.Outcome.next (serve_of_settled
        (settled_held arrives.settled { txn := t, run := run, waiting := r, place := p, latched := false } lines rfl wait))
    refine ⟨answer, fun v next => ?_⟩
    obtain rfl := Host.Outcome.next.inj (answer.symm.trans next)
    simp [canTake, takingBlocked]
  · have cls : run.cls = .live := by rw [decoded]; exact live
    show Host.Outcome.next (arrive t s) = _
    rw [taken, expandNew, expanded]
    dsimp only
    rw [cls]
    dsimp only
    have within : u.queue.length ≤ 256 := by
      rw [same, List.length_append, List.length_map]
      omega
    have overrun := liveOverrun_eq t.initiator run r within
    have flags : s.overrun = u.overrun := by rw [same]
    have shadow : s.shadow = u.shadow := by rw [same]
    have time : s.wallTime = u.wallTime := by rw [same]
    clear same
    subst source
    rw [overrun, flags, shadow, time]
    exact congrArg Host.Outcome.next (settled_finishAperture arrives.settled t run.source lines holds wait)

end Sys2Proof.Traffic

/-! PROOFS of O36, O38, O39, O42 and O43: the store port's answers and grants. -/

namespace Sys2Proof.StorePort

open Sys2Proof Sys2Proof.Machine Sys2Proof.Steps Sys2Proof.Intake

/-! ## An event in service -/

/-- An event of the part that leaves the ingest port as it is, is all that happens. -/
theorem inService_leaves {s : State} (h : InService s) {f : State → State} (lines : (f s).lines = s.lines)
    (holds : (f s).holds = s.holds) (wait : (f s).passWait = s.passWait) : inService f s = f s := by
  unfold inService
  rw [h.running]
  exact serve_same h.settled lines holds wait

theorem inService_serves {s : State} (h : InService s) (f : State → State) : inService f s = serve (f s) := by
  unfold inService
  rw [h.running]
  rfl

/-! ## Answers -/

theorem ownResponse_free {s : State} {b : Byte} {tag : Tag} (named : b.toNat = tag.val) (free : s.tags[tag] = .free)
    (st : Status) : ownResponse b st s = s := by
  have inside : b.toNat < 32 := named ▸ tag.isLt
  obtain rfl : (⟨b.toNat, inside⟩ : Tag) = tag := Fin.ext named
  unfold ownResponse
  rw [dif_pos inside]
  dsimp only
  rw [free]

theorem ownResponse_quarantined {s : State} {b : Byte} {tag : Tag} (named : b.toNat = tag.val)
    (quarantined : s.tags[tag] = .quarantined) (st : Status) : ownResponse b st s = releaseQuarantined tag s := by
  have inside : b.toNat < 32 := named ▸ tag.isLt
  obtain rfl : (⟨b.toNat, inside⟩ : Tag) = tag := Fin.ext named
  unfold ownResponse
  rw [dif_pos inside]
  dsimp only
  rw [quarantined]

/-- The answer to a write of the part itself, by its origin (R17). -/
theorem ownResponse_busy {s : State} {b : Byte} {tag : Tag} {issued : Word} {own : OwnWrite} (named : b.toNat = tag.val)
    (busy : s.tags[tag] = .busy issued own) :
    ownResponse b .done s = originDone own (setTag tag .free s)
      ∧ ownResponse b .fault s = originFault own .fault
          (if reportsFault own then postEvent (evStoreFault tag own) (setTag tag .free s) else setTag tag .free s) := by
  have inside : b.toNat < 32 := named ▸ tag.isLt
  obtain rfl : (⟨b.toNat, inside⟩ : Tag) = tag := Fin.ext named
  unfold ownResponse
  rw [dif_pos inside, dif_pos inside]
  dsimp only
  rw [busy]
  exact ⟨rfl, rfl⟩

/-- Settles O36, by the entry the tag names. -/
theorem responsesHandled : Obligations.ResponsesHandled := by
  intro s b st r service
  refine ⟨fun other => ?_, fun outside => ?_, fun tag named => ⟨fun free => ?_, fun quarantined => ?_, ?_⟩⟩
  · have relayed : storePortResponse r s = respond r s := if_neg other
    show Host.Outcome.next (inService (storePortResponse r) s) = _
    rw [inService_leaves service] <;> rw [relayed] <;> rfl
  · have nothing : ownResponse b st s = s := by
      unfold ownResponse
      rw [dif_neg (by omega)]
    show Host.Outcome.next (inService (ownResponse b st) s) = _
    rw [inService_leaves service] <;> rw [nothing]
  · have nothing : ownResponse b st s = s := ownResponse_free named free st
    show Host.Outcome.next (inService (ownResponse b st) s) = _
    rw [inService_leaves service] <;> rw [nothing]
  · have freed : ownResponse b st s = releaseQuarantined tag s := ownResponse_quarantined named quarantined st
    show Host.Outcome.next (inService (ownResponse b st) s) = _
    rw [inService_leaves service] <;> rw [freed] <;> rfl
  · intro issued w p busy
    obtain ⟨done, fault⟩ := ownResponse_busy named busy
    show Host.Outcome.next (inService (ownResponse b st) s) = _
    cases st with
    | done => rw [inService_leaves service] <;> rw [done] <;> rfl
    | fault => rw [inService_leaves service] <;> rw [fault] <;> rfl

/-! ### The end of an event record's write (O38) -/

theorem ringSlot_offset (k : Slot) : ringSlot (0x4000 + 16 * k.toNat) = some k := by
  have small := k.isLt
  have index : (0x4000 + 16 * k.toNat - 0x4000) / 16 = k.toNat := by omega
  unfold ringSlot
  rw [if_pos ⟨by omega, by omega⟩, index]
  simp

/-- An answer to a post write, DONE or FAULT, tells the Poster that it has ended (R169). -/
theorem ownResponse_post {s : State} {b : Byte} {tag : Tag} {issued : Word} {off : Nat} (named : b.toNat = tag.val)
    (busy : s.tags[tag] = .busy issued (.post off)) (st : Status) :
    ownResponse b st s = postEnded off (setTag tag .free s) := by
  obtain ⟨done, fault⟩ := ownResponse_busy named busy
  cases st with
  | done => exact done
  | fault => exact fault

/-- The producer index passes the ended slots at the head, and stops at the first that has not ended. -/
theorem passEnded_spec (p : Slot) (ended rest : List (Slot × Bool)) (all : ∀ j ∈ ended, j.2 = true)
    (stop : ∀ j, rest.head? ≠ some (j, true)) :
    (passEnded p (ended ++ rest)).2 = rest
      ∧ (passEnded p (ended ++ rest)).1 = ((ended.getLast?.map fun j => j.1 + 1).getD p) := by
  induction ended generalizing p with
  | nil =>
    cases rest with
    | nil => exact ⟨rfl, rfl⟩
    | cons e rest =>
      obtain ⟨j, done⟩ := e
      cases done with
      | false => exact ⟨rfl, rfl⟩
      | true => exact absurd rfl (stop j)
  | cons e ended ih =>
    obtain ⟨j, done⟩ := e
    obtain rfl : done = true := all _ List.mem_cons_self
    have tail := ih (j + 1) fun i mem => all i (List.mem_cons_of_mem _ mem)
    refine ⟨tail.1, tail.2.trans ?_⟩
    cases ended with
    | nil => rfl
    | cons e ended => rw [List.getLast?_cons_cons, List.getLast?_cons]; rfl

/-- The Poster with the producer index past these slots, and IRQ at its level (R166, R167). -/
def passedTo (new : Slot) (rest : List (Slot × Bool)) (s : State) : State :=
  { s with
    poster := flaggedIf (s.poster.producer != new) .producer { s.poster with producer := new, issued := rest }
    irq := interruptEnabled s.shadow && new != consumerIndex s.shadow }

theorem advanceProducer_passedTo {s : State} {new : Slot} {rest issued : List (Slot × Bool)} (running : s.ponrst = false)
    (passes : passEnded s.poster.producer issued = (new, rest)) :
    advanceProducer { s with poster := { s.poster with issued := issued } } = passedTo new rest s := by
  unfold advanceProducer
  dsimp only
  rw [passes]
  unfold updateIrq irqLevel passedTo flagIf flaggedIf
  dsimp only
  rw [running]
  simp only [Bool.not_false, Bool.true_and]
  split <;> rfl

/-- The write of the oldest outstanding slot has ended, and with it the ended ones behind it are passed. -/
theorem postEnded_oldest {s : State} {k new : Slot} {ended rest : List (Slot × Bool)} (running : s.ponrst = false)
    (issued : s.poster.issued = (k, false) :: ended ++ rest) (all : ∀ j ∈ ended, j.2 = true)
    (stop : ∀ j, rest.head? ≠ some (j, true)) (last : ((ended.getLast?.map fun j => j.1 + 1).getD (k + 1)) = new) :
    postEnded (0x4000 + 16 * k.toNat) s = passedTo new rest s := by
  have marked : markEnded k s.poster.issued = (k, true) :: (ended ++ rest) := by
    rw [issued]
    simp [markEnded]
  unfold postEnded
  rw [ringSlot_offset]
  dsimp only
  rw [marked]
  refine advanceProducer_passedTo running ?_
  obtain ⟨left, passed⟩ := passEnded_spec (k + 1) ended rest all stop
  exact Prod.ext (passed.trans last) left

/-- The slots that end behind the oldest one are the next ones of the ring. -/
theorem last_of_ended {s : State} {k : Slot} {ended rest : List (Slot × Bool)} (ordered : RingOrdered s)
    (issued : s.poster.issued = (k, false) :: ended ++ rest) :
    ((ended.getLast?.map fun j => j.1 + 1).getD (k + 1)) = k + 1 + BitVec.ofNat 8 ended.length := by
  have slots := ((RingOrder.ringOrdered_iff s).1 ordered).slots
  have follow : ∀ (l tail : List Slot) (p : Slot) (n : Nat), l ++ tail = RingOrder.slotsFrom p n →
      ((l.getLast?.map fun j => j + 1).getD p) = p + BitVec.ofNat 8 l.length := by
    intro l
    induction l with
    | nil => intro tail p n _; simp
    | cons j l ih =>
      intro tail p n same
      cases n with
      | zero => simp [RingOrder.slotsFrom] at same
      | succ n =>
        rw [RingOrder.slotsFrom_cons] at same
        obtain ⟨rfl, tailed⟩ := List.cons.inj same
        have next := ih tail (j + 1) n tailed
        rw [List.length_cons, Nat.add_comm l.length 1, ← RingOrder.slot_add_add]
        refine Eq.trans ?_ next
        cases l with
        | nil => rfl
        | cons i l => rw [List.getLast?_cons_cons, List.getLast?_cons]; rfl
  simp only [RingOrder.slotsOf, issued, List.map_append, List.map_cons, List.cons_append, List.length_cons] at slots
  rw [RingOrder.slotsFrom_cons] at slots
  obtain ⟨head, tailed⟩ := List.cons.inj slots
  rw [List.append_assoc] at tailed
  have next := follow (ended.map (·.1)) _ _ _ tailed
  rw [List.length_map, List.getLast?_map, Option.map_map] at next
  rw [head]
  exact next

/-- While the write of an earlier slot has not ended, P stays (R166). -/
theorem postEnded_later {s : State} {j k : Slot} {rest : List (Slot × Bool)} (running : s.ponrst = false) (other : j ≠ k)
    (issued : s.poster.issued = (j, false) :: rest) :
    postEnded (0x4000 + 16 * k.toNat) s = passedTo s.poster.producer ((j, false) :: markEnded k rest) s := by
  have marked : markEnded k s.poster.issued = (j, false) :: markEnded k rest := by
    rw [issued]
    simp [markEnded, other]
  unfold postEnded
  rw [ringSlot_offset]
  dsimp only
  rw [marked]
  exact advanceProducer_passedTo running rfl

theorem storeResponse_post {s : State} {b : Byte} {tag : Tag} {issued : Word} {off : Nat} (service : InService s)
    (named : b.toNat = tag.val) (busy : s.tags[tag] = .busy issued (.post off)) (st : Status) :
    exec (.storeResponse b st) s = .next (postEnded off (setTag tag .free s)) := by
  have only := postEnded_ringOnly off (setTag tag .free s)
  show Host.Outcome.next (inService (ownResponse b st) s) = _
  rw [inService_leaves service] <;> rw [ownResponse_post named busy]
  · exact only.lines
  · exact only.holds
  · exact only.passWait

/-- Settles O38. -/
theorem postAnswerMovesProducer : Obligations.PostAnswerMovesProducer := by
  refine ⟨fun s b tag issued st k rest service named busy => ⟨fun stop outstanding => ?_, fun j other outstanding => ?_⟩, ?_⟩
  · rw [storeResponse_post service named busy, postEnded_oldest (s := setTag tag .free s) (ended := []) service.running
      outstanding (fun _ mem => by cases mem) stop rfl]
    rfl
  · rw [storeResponse_post service named busy,
      postEnded_later (s := setTag tag .free s) service.running other outstanding]
    refine ⟨_, rfl, rfl, ?_, ?_⟩ <;> simp [passedTo, flaggedIf, setTag]
  · intro s b tag issued st k new ended rest service ordered named busy outstanding all stop last
    rw [storeResponse_post service named busy, postEnded_oldest (s := setTag tag .free s) service.running
      outstanding all stop ((last_of_ended ordered outstanding).trans last.symm)]
    rfl

/-! ## Grants -/

theorem storeOpportunity_granted {s : State} {r : Requester} (chosen : chosen s = some r) :
    opportunity s = grant r { s with lastGranted := r } := by
  unfold opportunity
  rw [chosen]

/-- The lowest FREE tag does not depend on the last grant. -/
theorem grant_withTag {s : State} {tag : Tag} {r : Requester} (free : freeTag s = some tag) (f : Tag → State → State) :
    withFreeTag f { s with lastGranted := r } = f tag { s with lastGranted := r } := by
  have same : freeTag { s with lastGranted := r } = some tag := free
  unfold withFreeTag
  rw [same]

/-- Settles O39. -/
theorem passGranted : Obligations.PassGranted := by
  intro s t rest service head granted
  have passed : opportunity s = { s with
      passFifo := rest ++ s.passWait.take 1, passWait := s.passWait.drop 1, storeOut := s.storeOut ++ [t]
      lastGranted := .pass } := by
    rw [storeOpportunity_granted granted]
    show grantPass _ = _
    unfold grantPass
    split
    · next none => exact absurd (none.symm.trans head) (List.cons_ne_nil t rest).symm
    · next t' rest' fifo =>
      obtain ⟨rfl, rfl⟩ := List.cons.inj (fifo.symm.trans head)
      rfl
  refine ⟨_, ?_, rfl, fun none => serve_same service.settled rfl rfl (by simp [none])⟩
  show Host.Outcome.next (inService opportunity s) = _
  rw [inService_serves service, passed]

theorem offeredFrom_events {p : Poster} {e : EventRecord} {rest : List EventRecord} (events : p.events = e :: rest)
    (turn : p.flags = [] ∨ p.lastSource = .items) : offeredFrom p = some .events := by
  have some_ : p.events.isEmpty = false := by rw [events]; rfl
  unfold offeredFrom
  rw [some_]
  cases none : p.flags.isEmpty with
  | true => rfl
  | false =>
    have last := turn.resolve_left fun empty => by simp [empty] at none
    simp [last]

theorem offeredFrom_items {p : Poster} (flags : p.flags ≠ []) (turn : p.events = [] ∨ p.lastSource = .events) :
    offeredFrom p = some .items := by
  have some_ : p.flags.isEmpty = false := by simpa using flags
  unfold offeredFrom
  rw [some_]
  cases none : p.events.isEmpty with
  | true => rfl
  | false =>
    have last := turn.resolve_left fun empty => by simp [empty] at none
    simp [last]

/-- Settles O42. -/
theorem postGranted : Obligations.PostGranted := by
  intro s tag service granted free
  have posted : opportunity s = grantPost tag { s with lastGranted := .post } := by
    rw [storeOpportunity_granted granted]
    exact grant_withTag free grantPost
  refine ⟨fun e rest events turn => ?_, fun i flags turn item => ?_⟩
  · have issued : opportunity s = grantEvent tag { s with lastGranted := .post } := by
      rw [posted]
      unfold grantPost
      rw [show offeredFrom _ = some .events from offeredFrom_events events turn]
    have record : grantEvent tag { s with lastGranted := .post } = { s with
        tags := put s.tags tag (.busy s.wallTime (.post (0x4000 + 16 * e.slot.toNat)))
        storeOut := s.storeOut ++ [postTxn s tag (0x4000 + 16 * e.slot.toNat) (eventBytes e)]
        lastGranted := .post
        poster := { s.poster with
          events := rest, issued := s.poster.issued ++ [(e.slot, false)], lastSource := .events } } := by
      unfold grantEvent
      split
      · next none => exact absurd (none.symm.trans events) (List.cons_ne_nil e rest).symm
      · next e' rest' pending =>
        obtain ⟨rfl, rfl⟩ := List.cons.inj (pending.symm.trans events)
        rfl
    show Host.Outcome.next (inService opportunity s) = _
    rw [inService_leaves service] <;> rw [issued, record]
  · have issued : opportunity s = grantItem tag { s with lastGranted := .post } := by
      rw [posted]
      unfold grantPost
      rw [show offeredFrom _ = some .items from offeredFrom_items flags turn]
    have record : grantItem tag { s with lastGranted := .post } = { s with
        tags := put s.tags tag (.busy s.wallTime (.post (itemOffset i)))
        storeOut := s.storeOut ++ [postTxn s tag (itemOffset i) (itemBytes s i)]
        lastGranted := .post
        poster := { s.poster with
          flags := s.poster.flags.erase i, lastItem := some i, lastSource := .items } } := by
      have bytes : itemBytes { s with lastGranted := .post } i = itemBytes s i := by cases i <;> rfl
      unfold grantItem
      rw [show nextItem _ _ = some i from item]
      dsimp only
      rw [bytes]
      rfl
    show Host.Outcome.next (inService opportunity s) = _
    rw [inService_leaves service] <;> rw [issued, record]

/-! ## The arbiter's ring (O43) -/

theorem ringDistance_le (last r : Requester) : ringDistance last r ≤ 3 := by
  cases last <;> cases r <;> decide

/-- From a requester no farther in the ring, the way to one behind it is shorter. -/
theorem ringDistance_lt (last q r : Requester) (before : ringDistance last q ≤ ringDistance last r) (other : q ≠ r) :
    ringDistance q r < ringDistance last r := by
  revert before other
  cases last <;> cases q <;> cases r <;> decide

theorem mem_ringAfter (last r : Requester) : r ∈ ringAfter last := by
  cases last <;> cases r <;> decide

/-- The first of a list that has a property stands before any other that has it. -/
theorem idxOf_le_of_find? {α : Type} [DecidableEq α] {f : α → Bool} {l : List α} {x y : α} (first : l.find? f = some x)
    (also : f y = true) (mem : y ∈ l) : l.idxOf x ≤ l.idxOf y := by
  induction l with
  | nil => cases mem
  | cons z l ih =>
    by_cases here : f z = true
    · obtain rfl : z = x := by simpa [List.find?_cons, here] using first
      simp [List.idxOf_cons]
    · have skip : z ≠ x := fun same => here (same ▸ List.find?_some first)
      have skip' : z ≠ y := fun same => here (same ▸ also)
      rw [List.find?_cons_of_neg here] at first
      have tail := ih first ((List.mem_cons.1 mem).resolve_left (Ne.symm skip'))
      simp only [List.idxOf_cons, beq_eq_false_iff_ne.2 skip, beq_eq_false_iff_ne.2 skip', cond_false]
      omega

theorem grant_lastGranted (r : Requester) (s : State) : (grant r s).lastGranted = s.lastGranted := by
  have withTag : ∀ (f : Tag → State → State), (∀ tag s, (f tag s).lastGranted = s.lastGranted) →
      (withFreeTag f s).lastGranted = s.lastGranted := by
    intro f h
    unfold withFreeTag
    split
    · rfl
    · exact h _ s
  cases r with
  | pass =>
    show (grantPass s).lastGranted = _
    unfold grantPass
    split <;> rfl
  | expansion =>
    refine withTag _ fun tag s => ?_
    unfold grantExpansion
    split
    · rfl
    · exact (walk_only _).lastGranted
  | fill =>
    refine withTag _ fun tag s => ?_
    unfold grantFill
    split
    · rfl
    · exact (BlockInvariants.fillIssued_only _ _).lastGranted
  | post =>
    refine withTag _ fun tag s => ?_
    unfold grantPost
    split
    · rfl
    · unfold grantEvent
      split <;> rfl
    · unfold grantItem
      split <;> rfl

theorem serveLines_lastGranted (fuel : Nat) (s : State) : (serveLines fuel s).lastGranted = s.lastGranted := by
  induction fuel generalizing s with
  | zero => rfl
  | succ fuel ih =>
    unfold serveLines
    obtain ⟨none, _⟩ | ⟨i, n, chosen, _⟩ := nextReady_spec s
    · rw [none]
    · rw [chosen]
      dsimp only
      split
      · rfl
      · next t rest _ => exact (ih _).trans (take_only t _).lastGranted

theorem serve_lastGranted (s : State) : (serve s).lastGranted = s.lastGranted := by
  unfold serve
  split
  · rfl
  · exact serveLines_lastGranted _ s

/-- Settles O43: the search goes round the ring from the last granted requester. -/
theorem arbiterServesWithinFourGrants : Obligations.ArbiterServesWithinFourGrants := by
  intro s r service
  refine ⟨ringDistance_le _ _, fun eligible_r => ?_, fun none => ?_⟩
  · obtain ⟨q, granted⟩ : ∃ q, chosen s = some q := by
      cases found : chosen s with
      | none => exact absurd eligible_r (List.find?_eq_none.1 found r (mem_ringAfter _ r))
      | some q => exact ⟨q, rfl⟩
    have last : (serve (opportunity s)).lastGranted = q := by
      rw [serve_lastGranted, storeOpportunity_granted granted, grant_lastGranted]
    refine ⟨serve (opportunity s), congrArg Host.Outcome.next (inService_serves service opportunity), ?_⟩
    rw [last]
    by_cases same : q = r
    · exact .inl same
    · exact .inr (ringDistance_lt _ q r (idxOf_le_of_find? granted eligible_r (mem_ringAfter _ r)) same)
  · have nothing : opportunity s = s := by
      have unchosen : chosen s = .none := List.find?_eq_none.2 fun q _ => by simp [none q]
      unfold opportunity
      rw [unchosen]
    show Host.Outcome.next (inService opportunity s) = _
    rw [inService_leaves service] <;> rw [nothing]

end Sys2Proof.StorePort

/-! PROOFS of O37, O41, O49 and O50: what the Fill Engine does at a start, a grant, an answer and an end. -/

namespace Sys2Proof.Fills

open Sys2Proof Sys2Proof.Machine Sys2Proof.Steps Sys2Proof.StorePort

/-! ## The Poster's lists at the Fill Engine's operations -/

/-- From `s` to `t` the lists and indices of the event ring stay. -/
structure RingStays (s t : State) : Prop where
  events : t.poster.events = s.poster.events
  issued : t.poster.issued = s.poster.issued
  producer : t.poster.producer = s.poster.producer
  allocation : t.poster.allocation = s.poster.allocation

theorem RingStays.refl (s : State) : RingStays s s := ⟨rfl, rfl, rfl, rfl⟩

theorem RingStays.trans {s t u : State} (h : RingStays s t) (k : RingStays t u) : RingStays s u :=
  ⟨k.events.trans h.events, k.issued.trans h.issued, k.producer.trans h.producer, k.allocation.trans h.allocation⟩

theorem setChannel_ring (c : ChannelId) (ch : Channel) (s : State) : RingStays s (setChannel c ch s) := ⟨rfl, rfl, rfl, rfl⟩

theorem lowerCause_ring (e : ResolveEntry) (s : State) : RingStays s (lowerCause e s) := by
  unfold lowerCause
  split <;> exact ⟨rfl, rfl, rfl, rfl⟩

theorem dropHead_ring (c : ChannelId) (s : State) : RingStays s (dropHead c s) := by
  cases c with
  | zero =>
    unfold dropHead
    dsimp only
    split
    · exact .refl s
    · next e rest _ => exact (RingStays.mk rfl rfl rfl rfl : RingStays s { s with exposure := rest }).trans (lowerCause_ring e _)
  | one => exact ⟨rfl, rfl, rfl, rfl⟩

theorem entryEnded_ring (c : ChannelId) (s : State) : RingStays s (entryEnded c s) := by
  unfold entryEnded moveChannel
  split
  · exact ⟨rfl, rfl, rfl, rfl⟩
  · split <;> exact ⟨rfl, rfl, rfl, rfl⟩

theorem endCurrent_ring (c : ChannelId) (o : LastOutcome) (s : State) : RingStays s (endCurrent c o s) :=
  ((dropHead_ring c s).trans (setChannel_ring c _ _)).trans (entryEnded_ring c _)

theorem setRowsDone_ring (c : ChannelId) (n : Nat) (s : State) : RingStays s (setRowsDone c n s) := by
  cases c <;> unfold setRowsDone <;> dsimp only <;> split <;> exact ⟨rfl, rfl, rfl, rfl⟩

theorem discardExposure_ring (l : List ResolveEntry) (s : State) : RingStays s (discardExposure l s) := by
  induction l generalizing s with
  | nil => exact ⟨rfl, rfl, rfl, rfl⟩
  | cons e rest ih =>
    unfold discardExposure
    split
    · exact ⟨rfl, rfl, rfl, rfl⟩
    · exact ((RingStays.mk rfl rfl rfl rfl : RingStays s { s with exposure := rest }).trans (lowerCause_ring e _)).trans (ih _)

theorem channelFault_ring (c : ChannelId) (o : LastOutcome) (s : State) : RingStays s (channelFault c o s) := by
  unfold channelFault
  dsimp only
  split
  · exact (setChannel_ring c _ s).trans (endCurrent_ring c o _)
  · exact setChannel_ring c _ s

/-! ## The end of an entry -/

/-- What the end of a channel's current entry does (R125, R129, R130). -/
structure EntryOver (c : ChannelId) (o : LastOutcome) (s u : State) : Prop where
  outstanding : (getChannel c u).outstanding = (getChannel c s).outstanding
  resting : (getChannel c u).current = false
  row : (getChannel c u).row = []
  last : (getChannel c u).last = o
  resolve : c = .zero → u.marking = s.marking ∧ ∀ e rest, s.exposure = e :: rest → u.exposure = rest
    ∧ ∀ w : WindowId, u.fillCount[w] = if e.cause = some w then s.fillCount[w] - 1 else s.fillCount[w]
  border : c = .one → u.marking = s.marking.tail ∧ u.exposure = s.exposure ∧ u.fillCount = s.fillCount
  swaps : (getChannel (otherChannel c) s).state = .pending →
    getChannel (otherChannel c) u = { getChannel (otherChannel c) s with state := .active }
      ∧ (getChannel c u).state = if listLength c u = 0 then .idle else .pending
  goesOn : (getChannel (otherChannel c) s).state ≠ .pending →
    getChannel (otherChannel c) u = getChannel (otherChannel c) s
      ∧ (getChannel c u).state = if listLength c u = 0 then .idle else (getChannel c s).state

/-- The channels after an entry has ended (R125). -/
theorem entryEnded_spec (c : ChannelId) (s : State) :
    (∃ st, getChannel c (entryEnded c s) = { getChannel c s with state := st })
    ∧ ((getChannel (otherChannel c) s).state = .pending →
      getChannel (otherChannel c) (entryEnded c s) = { getChannel (otherChannel c) s with state := .active }
        ∧ (getChannel c (entryEnded c s)).state = if listLength c s = 0 then .idle else .pending)
    ∧ ((getChannel (otherChannel c) s).state ≠ .pending →
      getChannel (otherChannel c) (entryEnded c s) = getChannel (otherChannel c) s
        ∧ (getChannel c (entryEnded c s)).state = if listLength c s = 0 then .idle else (getChannel c s).state) := by
  unfold entryEnded moveChannel
  split
  · next pending =>
    refine ⟨⟨if listLength c s = 0 then .idle else .pending, ?_⟩, fun _ => ⟨?_, ?_⟩, fun not => absurd pending not⟩
    · rw [getChannel_setOther, getChannel_setChannel]
    · rw [getChannel_setChannel, getChannel_setChannel_other]
    · rw [getChannel_setOther, getChannel_setChannel]
  · next notPending =>
    split
    · next empty =>
      refine ⟨⟨.idle, getChannel_setChannel c _ s⟩, fun pending => absurd pending notPending, fun _ => ⟨?_, ?_⟩⟩
      · rw [getChannel_setChannel_other]
      · rw [getChannel_setChannel]
    · next filled => exact ⟨⟨_, rfl⟩, fun pending => absurd pending notPending, fun _ => ⟨rfl, rfl⟩⟩

theorem dropHead_marking (s : State) : (dropHead .zero s).marking = s.marking := by
  unfold dropHead
  dsimp only
  split
  · rfl
  · next e rest _ => exact (lowerCause_stays e { s with exposure := rest }).marking

theorem dropHead_exposure {s : State} {e : ResolveEntry} {rest : List ResolveEntry} (head : s.exposure = e :: rest) :
    (dropHead .zero s).exposure = rest
      ∧ ∀ w : WindowId, (dropHead .zero s).fillCount[w]
        = if e.cause = some w then s.fillCount[w] - 1 else s.fillCount[w] := by
  unfold dropHead
  dsimp only
  split
  · next none => simp [head] at none
  · next e' rest' head' =>
    obtain ⟨rfl, rfl⟩ := List.cons.inj (head'.symm.trans head)
    exact ⟨(lowerCause_stays e' { s with exposure := rest' }).exposure, lowerCause_count e' { s with exposure := rest' }⟩

theorem endCurrent_over (c : ChannelId) (o : LastOutcome) (s : State) : EntryOver c o s (endCurrent c o s) := by
  have dropped := fun d => dropHead_channels c d s
  have only := (setChannel_channels c { getChannel c (dropHead c s) with current := false, row := [], last := o }
    (dropHead c s)).trans (entryEnded_channels c _)
  unfold endCurrent
  dsimp only
  generalize hv : setChannel c { getChannel c (dropHead c s) with current := false, row := [], last := o } (dropHead c s) = v
    at only ⊢
  have own : getChannel c v = { getChannel c s with current := false, row := [], last := o } := by
    rw [← hv, getChannel_setChannel, dropped]
  have other : getChannel (otherChannel c) v = getChannel (otherChannel c) s := by
    rw [← hv, getChannel_setChannel_other, dropped]
  have lists : ChannelsOnly (dropHead c s) v := hv ▸ setChannel_channels c _ _
  obtain ⟨⟨st, ended⟩, swaps, goesOn⟩ := entryEnded_spec c v
  rw [← (entryEnded_channels c v).listLength] at swaps goesOn
  rw [other] at swaps goesOn
  rw [own] at ended goesOn
  refine ⟨?_, ?_, ?_, ?_, fun zero => ?_, fun one => ?_, swaps, goesOn⟩
  · rw [ended]
  · rw [ended]
  · rw [ended]
  · rw [ended]
  · subst zero
    refine ⟨only.marking.trans (dropHead_marking s), fun e rest head => ⟨?_, fun w => ?_⟩⟩
    · exact only.exposure.trans (dropHead_exposure head).1
    · rw [only.fillCount]
      exact (dropHead_exposure head).2 w
  · subst one
    exact ⟨only.marking, only.exposure, only.fillCount⟩

theorem channelFault_told (c : ChannelId) (o : LastOutcome) (s : State) : ChannelTold c o s (channelFault c o s) := by
  have current : (getChannel c (answered c s)).current = (getChannel c s).current := by
    rw [answered, getChannel_setChannel]
  have own : getChannel c (answered c s) = { getChannel c s with outstanding := (getChannel c s).outstanding - 1 } :=
    getChannel_setChannel c _ s
  have other : getChannel (otherChannel c) (answered c s) = getChannel (otherChannel c) s :=
    getChannel_setChannel_other c _ s
  have lists : ChannelsOnly s (answered c s) := setChannel_channels c _ s
  unfold channelFault
  dsimp only
  split
  · next held =>
    have finish := endCurrent_over c o (answered c s)
    refine ⟨?_, fun without => ?_, fun _ => ⟨finish.resting, finish.row, finish.last⟩, fun zero now e rest head => ?_,
      fun one now => ?_, fun _ pending => ?_, fun _ notPending => ?_⟩
    · rw [finish.outstanding, own]
    · rw [current, without] at held
      cases held
    · obtain ⟨marking, entry⟩ := finish.resolve zero
      obtain ⟨exposure, counts⟩ := entry e rest (lists.exposure.trans head)
      refine ⟨exposure, marking.trans lists.marking, fun w => ?_⟩
      rw [counts, lists.fillCount]
    · obtain ⟨marking, exposure, counts⟩ := finish.border one
      exact ⟨marking.trans (congrArg List.tail lists.marking), exposure.trans lists.exposure, counts.trans lists.fillCount⟩
    · rw [← other] at pending ⊢
      exact finish.swaps pending
    · rw [← other] at notPending ⊢
      have goesOn := finish.goesOn notPending
      rw [own] at goesOn
      exact goesOn
  · next without =>
    rw [current] at without
    refine ⟨by rw [own], fun _ => ⟨lists.exposure, lists.marking, lists.fillCount, other, own⟩, fun now => absurd now without,
      fun zero now => ?_, fun one now => ?_, fun now => absurd now without, fun now => absurd now without⟩
    · subst zero
      exact absurd now without
    · subst one
      exact absurd now without

/-- The blocks that `ChannelTold` is about. -/
theorem told_congr {c : ChannelId} {o : LastOutcome} {s s' u : State} (h : ChannelTold c o s' u)
    (same : ListsStay s s') (counts : s'.fillCount = s.fillCount) : ChannelTold c o s u := by
  obtain ⟨outstanding, without, abandoned, resolve, border, swaps, goesOn⟩ := h
  have zero : s'.channel0 = s.channel0 := same.channel0
  have one : s'.channel1 = s.channel1 := same.channel1
  rw [same.getChannel] at outstanding
  simp only [same.getChannel, same.exposure, same.marking, counts, zero, one] at without abandoned resolve border swaps goesOn
  exact ⟨outstanding, without, abandoned, resolve, border, swaps, goesOn⟩

/-! ## Answers (O37) -/

theorem handedOver_events {m : Shadow} {now : Word} {e : Event} {p : Poster} (enabled : eventEnabled m e.kind = true)
    (room : unreadOf m p ≠ 255) : (handedOver m now e p).events = p.events ++ [recordOf now e p]
      ∧ (handedOver m now e p).allocation = p.allocation + 1 := by
  have room' : unreadOf m p ≠ Config.unreadLimit := room
  unfold handedOver
  rw [if_pos enabled, if_neg room']
  exact ⟨rfl, rfl⟩

/-- The state when a fill write's fault has been reported and its channel is not yet told. -/
def faultReported (tag : Tag) (own : OwnWrite) (s : State) : State := postEvent (evStoreFault tag own) (setTag tag .free s)

theorem ownResponse_fill {s : State} {b : Byte} {tag : Tag} {issued : Word} {c : ChannelId} {k : FillKind} {p : PanelId}
    (service : InService s) (named : b.toNat = tag.val) (busy : s.tags[tag] = .busy issued (.fill c k p)) :
    exec (.storeResponse b .done) s = .next (answered c (setTag tag .free s))
      ∧ exec (.storeResponse b .fault) s = .next (channelFault c .fault (faultReported tag (.fill c k p) s)) := by
  obtain ⟨done, fault⟩ := ownResponse_busy named busy
  have only := channelFault_only c .fault (faultReported tag (.fill c k p) s)
  refine ⟨?_, ?_⟩
  · show Host.Outcome.next (inService (ownResponse b .done) s) = _
    rw [inService_leaves service] <;> rw [done] <;> rfl
  · show Host.Outcome.next (inService (ownResponse b .fault) s) = _
    rw [inService_leaves service] <;> rw [fault]
    · rfl
    · exact only.lines
    · exact only.holds
    · exact only.passWait

theorem answered_poster (c : ChannelId) (s : State) : (answered c s).poster = s.poster := by
  unfold answered setChannel flagIf flaggedIf
  simp

/-- Settles O37: DONE lowers the outstanding count alone; a fault is reported, and then its channel is told. -/
theorem fillAnswersTaken : Obligations.FillAnswersTaken := by
  refine ⟨fun s b tag issued k p service named busy => ?_, fun s b tag issued c k p service named busy => ?_⟩
  · obtain ⟨done, fault⟩ := ownResponse_fill service named busy
    have told := told_congr (s := s) (channelFault_told .zero .fault (faultReported tag (.fill .zero k p) s))
      ⟨rfl, rfl, rfl, rfl⟩ rfl
    have only := channelFault_only .zero .fault (faultReported tag (.fill .zero k p) s)
    refine ⟨⟨_, done, rfl, rfl, rfl, rfl, answered_poster _ _⟩, fun resting => ?_, fun e rest current head => ?_⟩
    · obtain ⟨exposure, _, _, _, channel⟩ := told.without resting
      exact ⟨_, fault, only.tags, channel, exposure⟩
    · obtain ⟨ended, row, last⟩ := told.abandoned current
      obtain ⟨exposure, marking, counts⟩ := told.resolve rfl current e rest head
      exact ⟨_, fault, only.tags, exposure, ended, row, last, told.outstanding, counts, marking, only.queue, only.storeOut⟩
  · obtain ⟨done, fault⟩ := ownResponse_fill service named busy
    have told := told_congr (s := s) (channelFault_told c .fault (faultReported tag (.fill c k p) s)) ⟨rfl, rfl, rfl, rfl⟩ rfl
    have only := channelFault_only c .fault (faultReported tag (.fill c k p) s)
    have ring := channelFault_ring c .fault (faultReported tag (.fill c k p) s)
    refine ⟨⟨_, done, rfl, ?_, ?_, rfl, rfl, rfl, answered_poster _ _, rfl, rfl⟩,
      _, fault, only.tags, told, fun enabled room => ?_, only.queue, only.storeOut⟩
    · cases c <;> rfl
    · cases c <;> rfl
    · obtain ⟨events, _⟩ := handedOver_events (e := evStoreFault tag (.fill c k p)) (now := s.wallTime) enabled room
      refine ⟨_, ring.events.trans events, rfl, ?_, rfl, rfl⟩
      cases c <;> rfl

/-! ## Rows -/

/-- The next row that has writes, or the number of rows where none is left (R129). -/
theorem nextRow_spec (s : State) (c : ChannelId) (left r : Nat) :
    r ≤ (nextRow s c left r).1 ∧ (nextRow s c left r).1 ≤ r + left
      ∧ (∀ k, r ≤ k → k < (nextRow s c left r).1 → headRow s c k = [])
      ∧ ((nextRow s c left r).1 < r + left →
        (nextRow s c left r).2 = headRow s c (nextRow s c left r).1 ∧ (nextRow s c left r).2 ≠ [])
      ∧ ((nextRow s c left r).1 = r + left → (nextRow s c left r).2 = []) := by
  induction left generalizing r with
  | zero => exact ⟨Nat.le_refl _, Nat.le_refl _, fun k low high => by simp [nextRow] at high; omega,
      fun less => absurd less (by simp [nextRow]), fun _ => rfl⟩
  | succ left ih =>
    unfold nextRow
    split
    · next empty =>
      obtain ⟨low, high, before, found, none⟩ := ih (r + 1)
      refine ⟨by omega, by omega, fun k first last => ?_, fun less => found (by omega), fun same => none (by omega)⟩
      by_cases here : k = r
      · rw [here, empty]
      · exact before k (by omega) last
    · next w ws row =>
      exact ⟨Nat.le_refl _, by simp, fun k low high => absurd high (by simp; omega),
        fun _ => ⟨row.symm, List.cons_ne_nil w ws⟩, fun same => absurd same (by simp)⟩

/-- A channel's row after `done` rows: the next that has writes, and the rows passed (R129). -/
theorem beginRow_zero {s : State} {e : ResolveEntry} {es : List ResolveEntry} {done : Nat} (head : s.exposure = e :: es)
    (within : done ≤ e.h) : ∃ n, done ≤ n ∧ n ≤ e.h ∧ (beginRow .zero done s).exposure = { e with rowsDone := n } :: es
      ∧ (∀ k, done ≤ k → k < n → resolveRow s e k = [])
      ∧ (n < e.h → (beginRow .zero done s).channel0.row = resolveRow s e n ∧ resolveRow s e n ≠ [])
      ∧ (n = e.h → (beginRow .zero done s).channel0.row = []) := by
  have rows : ∀ r, headRow s .zero r = resolveRow s e r := fun r => by simp [headRow, head]
  have many : (headRows s .zero).2 = e.h := by simp [headRows, head]
  obtain ⟨low, high, before, found, none⟩ := nextRow_spec s .zero ((headRows s .zero).2 - done) done
  rw [many] at low high before found none
  have total : done + (e.h - done) = e.h := by omega
  rw [total] at high found none
  simp only [rows] at before found
  have row : (beginRow .zero done s).channel0.row = (nextRow s .zero ((headRows s .zero).2 - done) done).2 := rfl
  have moved : (beginRow .zero done s).exposure
      = { e with rowsDone := (nextRow s .zero ((headRows s .zero).2 - done) done).1 } :: es := by
    unfold beginRow setRowsDone
    dsimp only
    split
    · next empty => simp [head] at empty
    · next e' es' head' =>
      obtain ⟨rfl, rfl⟩ := List.cons.inj (head'.symm.trans head)
      rfl
  rw [many] at row moved
  exact ⟨(nextRow s .zero (e.h - done) done).1, low, high, moved, before, fun less => ⟨row.trans (found less).1, (found less).1 ▸ (found less).2⟩,
    fun same => row.trans (none same)⟩

theorem beginRow_one {s : State} {e : BorderEntry} {es : List BorderEntry} {done : Nat} (head : s.marking = e :: es)
    (within : done ≤ e.lines) : ∃ n, done ≤ n ∧ n ≤ e.lines ∧ (beginRow .one done s).marking = { e with rowsDone := n } :: es
      ∧ (∀ k, done ≤ k → k < n → borderRow s e k = [])
      ∧ (n < e.lines → (beginRow .one done s).channel1.row = borderRow s e n ∧ borderRow s e n ≠ [])
      ∧ (n = e.lines → (beginRow .one done s).channel1.row = []) := by
  have rows : ∀ r, headRow s .one r = borderRow s e r := fun r => by simp [headRow, head]
  have many : (headRows s .one).2 = e.lines := by simp [headRows, head]
  obtain ⟨low, high, before, found, none⟩ := nextRow_spec s .one ((headRows s .one).2 - done) done
  rw [many] at low high before found none
  have total : done + (e.lines - done) = e.lines := by omega
  rw [total] at high found none
  simp only [rows] at before found
  have row : (beginRow .one done s).channel1.row = (nextRow s .one ((headRows s .one).2 - done) done).2 := rfl
  have moved : (beginRow .one done s).marking
      = { e with rowsDone := (nextRow s .one ((headRows s .one).2 - done) done).1 } :: es := by
    unfold beginRow setRowsDone
    dsimp only
    split
    · next empty => simp [head] at empty
    · next e' es' head' =>
      obtain ⟨rfl, rfl⟩ := List.cons.inj (head'.symm.trans head)
      rfl
  rw [many] at row moved
  exact ⟨(nextRow s .one (e.lines - done) done).1, low, high, moved, before, fun less => ⟨row.trans (found less).1, (found less).1 ▸ (found less).2⟩,
    fun same => row.trans (none same)⟩

/-- Beginning a row changes the channel's row alone, of the channels, and nothing of the counts and the Poster. -/
structure RowBegun (c : ChannelId) (s u : State) : Prop where
  own : getChannel c u = { getChannel c s with row := (getChannel c u).row }
  other : getChannel (otherChannel c) u = getChannel (otherChannel c) s
  counts : u.fillCount = s.fillCount
  poster : u.poster = s.poster
  exposure : c = .one → u.exposure = s.exposure
  marking : c = .zero → u.marking = s.marking

theorem beginRow_begun (c : ChannelId) (n : Nat) (s : State) : RowBegun c s (beginRow c n s) := by
  have channels := fun d => setRowsDone_channels c d (nextRow s c ((headRows s c).2 - n) n).1 s
  have poster : (setRowsDone c (nextRow s c ((headRows s c).2 - n) n).1 s).poster = s.poster := by
    cases c <;> unfold setRowsDone <;> dsimp only <;> split <;> rfl
  have counts : (setRowsDone c (nextRow s c ((headRows s c).2 - n) n).1 s).fillCount = s.fillCount := by
    cases c <;> unfold setRowsDone <;> dsimp only <;> split <;> rfl
  have exposure : c = .one → (setRowsDone c (nextRow s c ((headRows s c).2 - n) n).1 s).exposure = s.exposure := by
    rintro rfl
    unfold setRowsDone
    dsimp only
    split <;> rfl
  have marking : c = .zero → (setRowsDone c (nextRow s c ((headRows s c).2 - n) n).1 s).marking = s.marking := by
    rintro rfl
    unfold setRowsDone
    dsimp only
    split <;> rfl
  unfold beginRow
  dsimp only
  generalize setRowsDone c (nextRow s c ((headRows s c).2 - n) n).1 s = v at channels poster counts exposure marking ⊢
  refine ⟨?_, ?_, counts, ?_, exposure, marking⟩
  · rw [getChannel_setChannel, channels]
  · rw [getChannel_setChannel_other, channels]
  · rw [← poster]
    unfold setChannel flagIf flaggedIf
    simp

/-- From `s` to `t` what the rows of an entry are cut from stays. -/
structure ViewStays (s t : State) : Prop where
  geometry : t.geometry = s.geometry
  shadow : t.shadow = s.shadow
  selection : t.selection = s.selection
  active : t.active = s.active
  next : t.next = s.next

theorem ViewStays.trans {s t u : State} (h : ViewStays s t) (k : ViewStays t u) : ViewStays s u :=
  ⟨k.geometry.trans h.geometry, k.shadow.trans h.shadow, k.selection.trans h.selection, k.active.trans h.active,
    k.next.trans h.next⟩

theorem view_of_fillOnly {s t : State} (only : FillOnly s t) : ViewStays s t :=
  ⟨only.geometry, only.shadow, only.selection, only.active, only.next⟩

theorem ViewStays.layoutOf {s t : State} (h : ViewStays s t) (p : PanelId) :
    Machine.layoutOf t p = Machine.layoutOf s p := by
  unfold Machine.layoutOf
  rw [h.selection, h.active, h.next]

theorem ViewStays.resolveRow {s t : State} (h : ViewStays s t) (e : ResolveEntry) (k : Nat) :
    Machine.resolveRow t e k = Machine.resolveRow s e k := by
  unfold Machine.resolveRow
  rw [h.layoutOf, h.geometry, h.shadow]

theorem ViewStays.borderRow {s t : State} (h : ViewStays s t) (e : BorderEntry) (k : Nat) :
    Machine.borderRow t e k = Machine.borderRow s e k := by
  unfold Machine.borderRow
  rw [h.layoutOf, h.geometry, h.shadow]

/-! ## FILL granted (O41) -/

theorem fillIssued_next {c : ChannelId} {s : State} {w : FillWrite} {rest : List FillWrite}
    (row : (getChannel c s).row = w :: rest) (more : rest ≠ []) :
    fillIssued c s = setChannel c
      { getChannel c s with outstanding := (getChannel c s).outstanding + 1, row := rest } s := by
  have tail : (getChannel c s).row.tail = rest := by rw [row]; rfl
  have some_ : rest.isEmpty = false := by simpa using more
  unfold fillIssued
  dsimp only
  rw [tail, some_]
  rfl

theorem fillIssued_last {c : ChannelId} {s : State} {w : FillWrite} (row : (getChannel c s).row = [w]) :
    fillIssued c s = beginRow c ((headRows s c).1 + 1) (setChannel c
      { getChannel c s with outstanding := (getChannel c s).outstanding + 1, row := [] } s) := by
  have tail : (getChannel c s).row.tail = [] := by rw [row]; rfl
  unfold fillIssued
  dsimp only
  rw [tail]
  rfl

/-- An issue changes the channel's outstanding count and row alone, of the channels, and nothing of the counts and the
Poster. -/
structure WriteIssued (c : ChannelId) (s u : State) : Prop where
  own : getChannel c u
    = { getChannel c s with outstanding := (getChannel c s).outstanding + 1, row := (getChannel c u).row }
  other : getChannel (otherChannel c) u = getChannel (otherChannel c) s
  poster : u.poster = s.poster
  exposure : c = .one → u.exposure = s.exposure
  marking : c = .zero → u.marking = s.marking

/-- A channel that keeps its state and last outcome is not flagged. -/
theorem setChannel_poster (c : ChannelId) {ch : Channel} (s : State) (state : ch.state = (getChannel c s).state)
    (last : ch.last = (getChannel c s).last) : (setChannel c ch s).poster = s.poster := by
  unfold setChannel flagIf flaggedIf
  simp [state, last]

theorem fillIssued_issued {c : ChannelId} {s : State} {w : FillWrite} {rest : List FillWrite}
    (row : (getChannel c s).row = w :: rest) : WriteIssued c s (fillIssued c s) := by
  have poster := fun row => setChannel_poster (ch := { getChannel c s with
    outstanding := (getChannel c s).outstanding + 1, row := row }) c s rfl rfl
  by_cases more : rest = []
  · subst more
    have begun := beginRow_begun c ((headRows s c).1 + 1) (setChannel c
      { getChannel c s with outstanding := (getChannel c s).outstanding + 1, row := [] } s)
    rw [fillIssued_last row]
    refine ⟨begun.own.trans ?_, begun.other.trans (getChannel_setChannel_other c _ s), begun.poster.trans (poster _),
      begun.exposure, begun.marking⟩
    rw [getChannel_setChannel]
  · rw [fillIssued_next row more]
    refine ⟨?_, getChannel_setChannel_other c _ s, poster _, fun _ => rfl, fun _ => rfl⟩
    rw [getChannel_setChannel]

/-- FILL granted: what is issued, and the channel after it. -/
theorem opportunity_fill {s : State} {c : ChannelId} {w : FillWrite} {tag : Tag} (service : InService s)
    (offer : fillOffer s = some (c, w)) (granted : chosen s = some .fill) (free : freeTag s = some tag) :
    exec .storeOpportunity s = .next (fillIssued c
      (issueOwn tag (.fill c (channelKind c) w.panel) (fillTxn tag w) { s with lastGranted := .fill })) := by
  have only := BlockInvariants.fillIssued_only c
    (issueOwn tag (.fill c (channelKind c) w.panel) (fillTxn tag w) { s with lastGranted := .fill })
  have issued : opportunity s = fillIssued c
      (issueOwn tag (.fill c (channelKind c) w.panel) (fillTxn tag w) { s with lastGranted := .fill }) := by
    rw [storeOpportunity_granted granted]
    refine (grant_withTag free grantFill).trans ?_
    have offer' : fillOffer { s with lastGranted := .fill } = some (c, w) := offer
    unfold grantFill
    rw [offer']
  show Host.Outcome.next (inService opportunity s) = _
  rw [inService_leaves service] <;> rw [issued]
  · exact only.lines
  · exact only.holds
  · exact only.passWait

theorem channelOffer_active {c : ChannelId} {s : State} {w : FillWrite} {rest : List FillWrite}
    (active : (getChannel c s).state = .active) (row : (getChannel c s).row = w :: rest) :
    channelOffer c s = some (c, w) := by
  unfold channelOffer
  rw [if_pos active, row]
  rfl

theorem channelOffer_resting {c : ChannelId} {s : State} (resting : (getChannel c s).state ≠ .active) :
    channelOffer c s = none := if_neg resting

/-- Settles O41: channel 0's offer comes first, and channel 1's where channel 0 is not ACTIVE. -/
theorem fillGranted : Obligations.FillGranted := by
  refine ⟨fun s w rest tag service active row granted free => ?_, fun s w rest tag service resting active row granted free => ?_⟩
  · have offer : fillOffer s = some (.zero, w) := by
      rw [fillOffer, channelOffer_active (c := .zero) active row]
      rfl
    let v := issueOwn tag (.fill .zero .resolve w.panel) (fillTxn tag w) { s with lastGranted := .fill }
    have only := BlockInvariants.fillIssued_only .zero v
    have issued := fillIssued_issued (c := .zero) (s := v) (w := w) (rest := rest) row
    refine ⟨fillIssued .zero v, opportunity_fill service offer granted free, only.tags, only.storeOut, only.lastGranted,
      issued.own, fun more => ?_, fun e es last head started => ?_, only.queue, issued.marking rfl, issued.other,
      issued.poster⟩
    · rw [fillIssued_next (c := .zero) (s := v) row more]
      exact ⟨rfl, rfl⟩
    · subst last
      rw [fillIssued_last (c := .zero) (s := v) row]
      have done : (headRows v .zero).1 = e.rowsDone := by
        show (headRows s .zero).1 = _
        simp [headRows, head]
      rw [done]
      obtain ⟨n, low, high, exposure, before, found, none⟩ := beginRow_zero (e := e) (es := es) (done := e.rowsDone + 1)
        (s := setChannel .zero { getChannel .zero v with outstanding := (getChannel .zero v).outstanding + 1, row := [] } v)
        head started
      have view := (ViewStays.mk rfl rfl rfl rfl rfl : ViewStays s v).trans (view_of_fillOnly (setChannel_only .zero
        { getChannel .zero v with outstanding := (getChannel .zero v).outstanding + 1, row := [] } v))
      simp only [view.resolveRow] at before found
      exact ⟨n, low, high, exposure, before, found, none⟩
  · have offer : fillOffer s = some (.one, w) := by
      rw [fillOffer, channelOffer_resting (c := .zero) resting, channelOffer_active (c := .one) active row]
      rfl
    let v := issueOwn tag (.fill .one .border w.panel) (fillTxn tag w) { s with lastGranted := .fill }
    have only := BlockInvariants.fillIssued_only .one v
    have issued := fillIssued_issued (c := .one) (s := v) (w := w) (rest := rest) row
    refine ⟨fillIssued .one v, opportunity_fill service offer granted free, only.tags, only.storeOut, only.lastGranted,
      issued.own, fun more => ?_, fun e es last head started => ?_, only.queue, issued.exposure rfl, issued.other,
      issued.poster⟩
    · rw [fillIssued_next (c := .one) (s := v) row more]
      exact ⟨rfl, rfl⟩
    · subst last
      rw [fillIssued_last (c := .one) (s := v) row]
      have done : (headRows v .one).1 = e.rowsDone := by
        show (headRows s .one).1 = _
        simp [headRows, head]
      rw [done]
      obtain ⟨n, low, high, marking, before, found, none⟩ := beginRow_one (e := e) (es := es) (done := e.rowsDone + 1)
        (s := setChannel .one { getChannel .one v with outstanding := (getChannel .one v).outstanding + 1, row := [] } v)
        head started
      have view := (ViewStays.mk rfl rfl rfl rfl rfl : ViewStays s v).trans (view_of_fillOnly (setChannel_only .one
        { getChannel .one v with outstanding := (getChannel .one v).outstanding + 1, row := [] } v))
      simp only [view.borderRow] at before found
      exact ⟨n, low, high, marking, before, found, none⟩

/-! ## Starts and ends (O49, O50) -/

theorem discardHeads_ring (c : ChannelId) (s : State) : RingStays s (discardHeads c s) := by
  cases c with
  | zero => exact discardExposure_ring s.exposure s
  | one =>
    unfold discardHeads
    dsimp only
    split <;> exact ⟨rfl, rfl, rfl, rfl⟩

theorem startEntry_emptied {c : ChannelId} {s : State} (empty : listLength c (discardHeads c s) = 0) :
    startEntry c s = emptiedByDiscards c (discardHeads c s) := if_pos empty

/-- The state in which a channel's first row begins. -/
def started (c : ChannelId) (s : State) : State :=
  setRowsDone c 0 (setChannel c { getChannel c (discardHeads c s) with current := true, row := [] } (discardHeads c s))

theorem startEntry_started {c : ChannelId} {s : State} (filled : listLength c (discardHeads c s) ≠ 0) :
    startEntry c s = beginRow c 0 (started c s) := if_neg filled

theorem started_view (c : ChannelId) (s : State) : ViewStays s (started c s) :=
  view_of_fillOnly (((discardHeads_only c s).trans (setChannel_only c _ _)).trans (setRowsDone_only c 0 _))

theorem started_channel (c : ChannelId) (s : State) :
    getChannel c (started c s) = { getChannel c s with current := true, row := [] }
      ∧ getChannel (otherChannel c) (started c s) = getChannel (otherChannel c) s := by
  unfold started
  rw [setRowsDone_channels, setRowsDone_channels, getChannel_setChannel, getChannel_setChannel_other,
    discardHeads_channels, discardHeads_channels]
  exact ⟨rfl, rfl⟩

theorem started_ring (c : ChannelId) (s : State) : RingStays s (started c s) :=
  ((discardHeads_ring c s).trans (setChannel_ring c _ _)).trans (setRowsDone_ring c 0 _)

/-- A list's head that passes, behind entries that fail. -/
theorem dropWhile_fails {α : Type} {passes : α → Bool} {ds : List α} {e : α} {rest : List α}
    (fail : ∀ x ∈ ds, passes x = false) (pass : passes e = true) :
    (ds ++ e :: rest).dropWhile (fun x => !passes x) = e :: rest
      ∧ (ds ++ e :: rest).takeWhile (fun x => !passes x) = ds := by
  have skipped : ∀ x ∈ ds, (!passes x) = true := fun x x_mem => by simp [fail x x_mem]
  rw [List.dropWhile_append_of_pos skipped, List.takeWhile_append_of_pos skipped]
  simp [pass]

theorem dropWhile_all_fail {α : Type} {passes : α → Bool} {l : List α} (fail : ∀ x ∈ l, passes x = false) :
    l.dropWhile (fun x => !passes x) = [] ∧ l.takeWhile (fun x => !passes x) = l := by
  have skipped : ∀ x ∈ l, (!passes x) = true := fun x x_mem => by simp [fail x x_mem]
  have dropped := List.dropWhile_append_of_pos (l₂ := []) skipped
  have taken := List.takeWhile_append_of_pos (l₂ := []) skipped
  simp only [List.append_nil, List.dropWhile_nil, List.takeWhile_nil] at dropped taken
  exact ⟨dropped, taken⟩

theorem resolvePasses_false {s : State} {x : ResolveEntry} :
    resolvePasses s x = false ↔ x.epoch ≠ s.panelEpoch[x.panel] := by simp [resolvePasses]

theorem discarded_zero {s : State} {ds : List ResolveEntry} {e : ResolveEntry} {rest : List ResolveEntry}
    (list : s.exposure = ds ++ e :: rest) (fail : ∀ x ∈ ds, x.epoch ≠ s.panelEpoch[x.panel])
    (pass : e.epoch = s.panelEpoch[e.panel]) : (discardHeads .zero s).exposure = e :: rest
      ∧ (discardHeads .zero s).marking = s.marking
      ∧ ∀ w : WindowId, (discardHeads .zero s).fillCount[w]
        = s.fillCount[w] - ds.countP (fun x => x.cause == some w) := by
  obtain ⟨exposure, stays, counts⟩ := discardExposure_spec s.exposure s
  obtain ⟨dropped, taken⟩ := dropWhile_fails (passes := resolvePasses s) (e := e) (rest := rest)
    (fun x x_mem => resolvePasses_false.2 (fail x x_mem)) (by simp [resolvePasses, pass])
  rw [← list] at dropped taken
  exact ⟨exposure.trans dropped, stays.marking, fun w => (counts w).trans (by rw [taken]; rfl)⟩

theorem emptiedByDiscards_spec (c : ChannelId) (s : State) :
    getChannel c (emptiedByDiscards c s) = { getChannel c s with state := .idle }
      ∧ getChannel (otherChannel c) (emptiedByDiscards c s) = { getChannel (otherChannel c) s with
        state := if (getChannel (otherChannel c) s).state = .pending then .active
          else (getChannel (otherChannel c) s).state } := by
  have other : getChannel (otherChannel c) (moveChannel c .idle s) = getChannel (otherChannel c) s :=
    getChannel_setChannel_other c _ s
  have own : getChannel c (moveChannel c .idle s) = { getChannel c s with state := .idle } := getChannel_setChannel c _ s
  unfold emptiedByDiscards
  dsimp only
  rw [other]
  split
  · generalize moveChannel c .idle s = t at own other
    unfold moveChannel
    rw [getChannel_setOther, getChannel_setChannel, own, other]
    exact ⟨rfl, rfl⟩
  · exact ⟨own, other⟩

theorem exec_fillEntryStart {s : State} (service : InService s) :
    (startingChannel s = none → exec .fillEntryStart s = .next s)
      ∧ ∀ c, startingChannel s = some c → exec .fillEntryStart s = .next (startEntry c s) := by
  refine ⟨fun due => ?_, fun c due => ?_⟩
  · have stay : startDue s = s := by rw [startDue, due]
    show Host.Outcome.next (inService startDue s) = _
    rw [inService_leaves service] <;> rw [stay]
  · have start : startDue s = startEntry c s := by rw [startDue, due]
    have only := startEntry_only c s
    show Host.Outcome.next (inService startDue s) = _
    rw [inService_leaves service] <;> rw [start]
    · exact only.lines
    · exact only.holds
    · exact only.passWait

theorem exec_fillEntryComplete {s : State} (service : InService s) :
    (paintedChannel s = none → exec .fillEntryComplete s = .next s)
      ∧ ∀ c, paintedChannel s = some c → exec .fillEntryComplete s = .next (endCurrent c .complete s) := by
  refine ⟨fun due => ?_, fun c due => ?_⟩
  · have stay : completeDue s = s := by rw [completeDue, due]
    show Host.Outcome.next (inService completeDue s) = _
    rw [inService_leaves service] <;> rw [stay]
  · have start : completeDue s = endCurrent c .complete s := by rw [completeDue, due]
    have only := endCurrent_only c .complete s
    show Host.Outcome.next (inService completeDue s) = _
    rw [inService_leaves service] <;> rw [start]
    · exact only.lines
    · exact only.holds
    · exact only.passWait

theorem starting_zero {s : State} (active : s.channel0.state = .active) (resting : s.channel0.current = false)
    (quiet : s.channel0.outstanding = 0) (filled : s.exposure ≠ []) : startingChannel s = some .zero := by
  have due : canStart .zero s = true := by
    simp [canStart, getChannel, listLength, active, resting, quiet, List.length_pos_iff.2 filled]
  rw [startingChannel, if_pos due]

theorem starting_one {s : State} (other : s.channel0.state ≠ .active) (active : s.channel1.state = .active)
    (resting : s.channel1.current = false) (quiet : s.channel1.outstanding = 0) (filled : s.marking ≠ []) :
    startingChannel s = some .one := by
  have notDue : ¬ canStart .zero s = true := by simp [canStart, getChannel, other]
  have due : canStart .one s = true := by
    simp [canStart, getChannel, listLength, active, resting, quiet, List.length_pos_iff.2 filled]
  rw [startingChannel, if_neg notDue, if_pos due]

theorem painted_zero {s : State} {e : ResolveEntry} {rest : List ResolveEntry} (active : s.channel0.state = .active)
    (current : s.channel0.current = true) (row : s.channel0.row = []) (quiet : s.channel0.outstanding = 0)
    (head : s.exposure = e :: rest) (done : e.h ≤ e.rowsDone) : paintedChannel s = some .zero := by
  have due : isPainted .zero s = true := by simp [isPainted, getChannel, headRows, active, current, row, quiet, head, done]
  rw [paintedChannel, if_pos due]

theorem painted_one {s : State} {e : BorderEntry} {rest : List BorderEntry} (other : s.channel0.state ≠ .active)
    (active : s.channel1.state = .active) (current : s.channel1.current = true) (row : s.channel1.row = [])
    (quiet : s.channel1.outstanding = 0) (head : s.marking = e :: rest) (done : e.lines ≤ e.rowsDone) :
    paintedChannel s = some .one := by
  have notDue : ¬ isPainted .zero s = true := by simp [isPainted, getChannel, other]
  have due : isPainted .one s = true := by simp [isPainted, getChannel, headRows, active, current, row, quiet, head, done]
  rw [paintedChannel, if_neg notDue, if_pos due]

theorem idle_iff_nil {α : Type} {l : List α} {a b : ChannelState} :
    (if l.length = 0 then a else b) = if l = [] then a else b := by
  simp only [List.length_eq_zero_iff]

theorem headStarts_zero {s : State} (ds : List ResolveEntry) (e : ResolveEntry) (rest : List ResolveEntry)
    (list : s.exposure = ds ++ e :: rest) (fail : ∀ x ∈ ds, x.epoch ≠ s.panelEpoch[x.panel])
    (pass : e.epoch = s.panelEpoch[e.panel]) :
    ∃ n, (startEntry .zero s).exposure = { e with rowsDone := n } :: rest ∧ n ≤ e.h
      ∧ ((startEntry .zero s).channel0.row = [] → n = e.h) ∧ (∀ k, k < n → resolveRow s e k = [])
      ∧ (n < e.h → (startEntry .zero s).channel0.row = resolveRow s e n)
      ∧ (startEntry .zero s).channel0 = { s.channel0 with current := true, row := (startEntry .zero s).channel0.row }
      ∧ (startEntry .zero s).channel1 = s.channel1 ∧ (startEntry .zero s).marking = s.marking
      ∧ (startEntry .zero s).poster.events = s.poster.events
      ∧ ∀ w : WindowId, (startEntry .zero s).fillCount[w]
        = s.fillCount[w] - ds.countP (fun x => x.cause == some w) := by
  obtain ⟨exposure, marking, counts⟩ := discarded_zero list fail pass
  rw [startEntry_started (by simp [listLength, exposure])]
  have ready : (started .zero s).exposure = { e with rowsDone := 0 } :: rest
      ∧ (started .zero s).marking = s.marking ∧ (started .zero s).fillCount = (discardHeads .zero s).fillCount := by
    unfold started setRowsDone
    dsimp only
    split
    · next empty => exact absurd (exposure.symm.trans empty) (List.cons_ne_nil e rest)
    · next e' rest' head =>
      obtain ⟨rfl, rfl⟩ := List.cons.inj (head.symm.trans exposure)
      exact ⟨rfl, marking, rfl⟩
  obtain ⟨ready, marks, counted⟩ := ready
  obtain ⟨own, other⟩ := started_channel .zero s
  have view := started_view .zero s
  have ring := started_ring .zero s
  generalize started .zero s = x at ready marks counted own other view ring
  obtain ⟨n, _, high, moved, before, found, none⟩ := beginRow_zero (done := 0) ready (Nat.zero_le _)
  have begun := beginRow_begun .zero 0 x
  simp only [view.resolveRow] at before found
  refine ⟨n, moved, high, fun empty => ?_, fun k => before k (Nat.zero_le k), fun less => (found less).1, ?_,
    begun.other.trans other, (begun.marking rfl).trans marks, (congrArg _ begun.poster).trans ring.events, fun w => ?_⟩
  · apply Classical.byContradiction
    intro other
    have less : n < e.h := Nat.lt_of_le_of_ne high other
    exact (found less).2 ((found less).1.symm.trans empty)
  · have := begun.own
    rw [own] at this
    exact this
  · rw [begun.counts, counted]
    exact counts w

theorem headStarts_one {s : State} (ds : List BorderEntry) (e : BorderEntry) (rest : List BorderEntry)
    (list : s.marking = ds ++ e :: rest) (fail : ∀ x ∈ ds, borderPasses s x = false) (pass : borderPasses s e = true) :
    ∃ n, (startEntry .one s).marking = { withRowRange s e with rowsDone := n } :: rest
      ∧ n ≤ (withRowRange s e).lines ∧ ((startEntry .one s).channel1.row = [] → n = (withRowRange s e).lines)
      ∧ (∀ k, k < n → borderRow s (withRowRange s e) k = [])
      ∧ (n < (withRowRange s e).lines → (startEntry .one s).channel1.row = borderRow s (withRowRange s e) n)
      ∧ (startEntry .one s).channel1 = { s.channel1 with current := true, row := (startEntry .one s).channel1.row }
      ∧ (startEntry .one s).channel0 = s.channel0 ∧ (startEntry .one s).exposure = s.exposure
      ∧ (startEntry .one s).fillCount = s.fillCount ∧ (startEntry .one s).poster = s.poster := by
  obtain ⟨dropped, _⟩ := dropWhile_fails (passes := borderPasses s) (rest := rest) fail pass
  have discarded : discardHeads .one s = { s with marking := withRowRange s e :: rest } := by
    unfold discardHeads
    rw [list, dropped]
  rw [startEntry_started (by simp [listLength, discarded])]
  have ready : (started .one s).marking = { withRowRange s e with rowsDone := 0 } :: rest
      ∧ (started .one s).exposure = s.exposure ∧ (started .one s).fillCount = s.fillCount
      ∧ (started .one s).poster = s.poster := by
    unfold started
    rw [discarded]
    exact ⟨rfl, rfl, rfl, setChannel_poster .one (ch := { s.channel1 with current := true, row := [] })
      { s with marking := withRowRange s e :: rest } rfl rfl⟩
  obtain ⟨ready, entries, counted, poster⟩ := ready
  obtain ⟨own, other⟩ := started_channel .one s
  have view := started_view .one s
  generalize started .one s = x at ready entries counted poster own other view
  obtain ⟨n, _, high, moved, before, found, none⟩ := beginRow_one (done := 0) ready (Nat.zero_le _)
  have begun := beginRow_begun .one 0 x
  simp only [view.borderRow] at before found
  refine ⟨n, moved, high, fun empty => ?_, fun k => before k (Nat.zero_le k), fun less => (found less).1, ?_,
    begun.other.trans other, (begun.exposure rfl).trans entries, begun.counts.trans counted, begun.poster.trans poster⟩
  · apply Classical.byContradiction
    intro other
    have less : n < (withRowRange s e).lines := Nat.lt_of_le_of_ne high other
    exact (found less).2 ((found less).1.symm.trans empty)
  · have := begun.own
    rw [own] at this
    exact this

theorem allDiscarded_zero {s : State} (fail : ∀ x ∈ s.exposure, x.epoch ≠ s.panelEpoch[x.panel])
    (coherent : FillCoherent s) : (startEntry .zero s).exposure = [] ∧ (startEntry .zero s).channel0.state = .idle
      ∧ (startEntry .zero s).channel0.last = s.channel0.last ∧ (∀ w : WindowId, (startEntry .zero s).fillCount[w] = 0)
      ∧ (startEntry .zero s).channel1.state
        = if s.channel1.state = .pending then .active else s.channel1.state := by
  obtain ⟨exposure, _, counts⟩ := discardExposure_spec s.exposure s
  obtain ⟨dropped, taken⟩ := dropWhile_all_fail (passes := resolvePasses s)
    (fun x x_mem => resolvePasses_false.2 (fail x x_mem))
  have emptied : (discardHeads .zero s).exposure = [] := exposure.trans dropped
  have only := emptiedByDiscards_channels .zero (discardHeads .zero s)
  rw [startEntry_emptied (by simp [listLength, emptied])]
  obtain ⟨own, other⟩ := emptiedByDiscards_spec .zero (discardHeads .zero s)
  rw [discardHeads_channels] at own other
  refine ⟨only.exposure.trans emptied, congrArg Channel.state own, Eq.trans (congrArg Channel.last own) rfl, fun w => ?_,
    congrArg Channel.state other⟩
  rw [only.fillCount]
  refine (counts w).trans ?_
  rw [taken, (coherent.counts w).1]
  exact Nat.sub_self _

theorem allDiscarded_one {s : State} (fail : ∀ x ∈ s.marking, borderPasses s x = false) :
    (startEntry .one s).marking = [] ∧ (startEntry .one s).channel1.state = .idle
      ∧ (startEntry .one s).channel1.last = s.channel1.last ∧ (startEntry .one s).exposure = s.exposure
      ∧ (startEntry .one s).fillCount = s.fillCount
      ∧ (startEntry .one s).channel0 = { s.channel0 with
          state := if s.channel0.state = .pending then .active else s.channel0.state } := by
  have discarded : discardHeads .one s = { s with marking := [] } := by
    unfold discardHeads
    rw [(dropWhile_all_fail (passes := borderPasses s) fail).1]
  rw [startEntry_emptied (by simp [listLength, discarded]), discarded]
  have only := emptiedByDiscards_channels .one { s with marking := [] }
  obtain ⟨own, other⟩ := emptiedByDiscards_spec .one { s with marking := [] }
  exact ⟨only.marking, congrArg Channel.state own, Eq.trans (congrArg Channel.last own) rfl, only.exposure, only.fillCount, other⟩

/-- Settles O49: the entries before the first that passes are discarded, and its rows without writes are passed. -/
theorem fillEntryStarted : Obligations.FillEntryStarted := by
  intro s service
  obtain ⟨notDue, due⟩ := exec_fillEntryStart service
  refine ⟨notDue, fun active resting quiet => ⟨fun ds e rest list fail pass => ?_, fun filled fail coherent => ?_⟩,
    fun ds e rest other active resting quiet list fail pass => ?_, fun other active resting quiet filled fail => ?_⟩
  · obtain ⟨n, exposure, high, all, before, found, own, other, marking, events, counts⟩ := headStarts_zero ds e rest list fail pass
    refine ⟨_, n, due _ (starting_zero active resting quiet (by simp [list])), ?_, ?_, exposure, high, all, before, found, counts,
      ?_, marking, other, (startEntry_only .zero s).tags, events⟩
    · rw [own]
    · rw [own]
      exact active
    · rw [own]
  · exact ⟨_, due _ (starting_zero active resting quiet filled), allDiscarded_zero fail coherent⟩
  · obtain ⟨n, marking, high, all, before, found, own, channel, exposure, counts, poster⟩ :=
      headStarts_one ds e rest list fail pass
    refine ⟨_, n, due _ (starting_one other active resting quiet (by simp [list])), ?_, ?_, marking, high, all, before, found,
      ?_, exposure, counts, channel, (startEntry_only .one s).tags, poster⟩
    · rw [own]
    · rw [own]
      exact active
    · rw [own]
  · exact ⟨_, due _ (starting_one other active resting quiet filled), allDiscarded_one fail⟩

/-- Settles O50: the entry leaves its list with last outcome COMPLETE, and the channels take turns. -/
theorem fillEntryCompleted : Obligations.FillEntryCompleted := by
  intro s service
  obtain ⟨notDue, due⟩ := exec_fillEntryComplete service
  refine ⟨notDue, fun e rest active current row quiet head done => ?_,
    fun e rest other active current row quiet head done => ?_⟩
  · have finish := endCurrent_over .zero .complete s
    have only := endCurrent_only .zero .complete s
    obtain ⟨marking, entry⟩ := finish.resolve rfl
    obtain ⟨exposure, counts⟩ := entry e rest head
    have length : listLength .zero (endCurrent .zero .complete s) = rest.length := congrArg List.length exposure
    refine ⟨_, due _ (painted_zero active current row quiet head done), exposure, finish.resting, finish.last, counts,
      fun pending => ?_, fun notPending => ?_, marking, only.tags, only.queue, only.storeOut,
      (endCurrent_ring .zero .complete s).events⟩
    · obtain ⟨theirs, ours⟩ := finish.swaps pending
      rw [length, idle_iff_nil] at ours
      exact ⟨congrArg Channel.state theirs, ours⟩
    · obtain ⟨theirs, ours⟩ := finish.goesOn notPending
      rw [length, idle_iff_nil] at ours
      exact ⟨theirs, ours.trans (by rw [show (getChannel .zero s).state = .active from active])⟩
  · have finish := endCurrent_over .one .complete s
    have only := endCurrent_only .one .complete s
    obtain ⟨marking, exposure, counts⟩ := finish.border rfl
    have left : (endCurrent .one .complete s).marking = rest := by rw [marking, head]; rfl
    have length : listLength .one (endCurrent .one .complete s) = rest.length := congrArg List.length left
    refine ⟨_, due _ (painted_one other active current row quiet head done), left, finish.resting, finish.last, exposure, counts,
      fun pending => ?_, fun notPending => ?_, only.tags, only.queue, only.storeOut,
      (endCurrent_ring .one .complete s).events⟩
    · obtain ⟨theirs, ours⟩ := finish.swaps pending
      rw [length, idle_iff_nil] at ours
      exact ⟨theirs, ours⟩
    · obtain ⟨theirs, ours⟩ := finish.goesOn notPending
      rw [length, idle_iff_nil] at ours
      exact ⟨theirs, ours.trans (by rw [show (getChannel .one s).state = .active from active])⟩

end Sys2Proof.Fills

/-! PROOFS of O40 and O44: the walk of the hold list, and the store timeout. Before them, which events a stretch hands
over, in their order. -/

namespace Sys2Proof.Events

open Sys2Proof Sys2Proof.Machine Sys2Proof.Fills

/-! ## Posting flags -/

/-- No two posted items lie at the same offset (R172). -/
theorem itemOffset_injective {i j : PostItem} (h : itemOffset i = itemOffset j) : i = j := by
  cases i <;> cases j <;> grind [itemOffset]

theorem mem_insertItem_self (i : PostItem) (l : List PostItem) : i ∈ insertItem i l := by
  induction l with
  | nil => exact List.mem_singleton_self i
  | cons j rest ih =>
    unfold insertItem
    split
    · exact List.mem_cons_self
    · split
      · next same => exact itemOffset_injective same ▸ List.mem_cons_self
      · exact List.mem_cons_of_mem j ih

theorem mem_flaggedIf {changed : Bool} (i : PostItem) (p : Poster) (yes : changed = true) :
    i ∈ (flaggedIf changed i p).flags := by
  subst yes
  exact mem_insertItem_self i p.flags

/-! ## The events of a stretch -/

/-- What a record tells, whichever slot and sequence number it is given. -/
def bare (r : EventRecord) : EventRecord := { r with slot := 0, sequence := 0 }

/-- What the record of an event tells. -/
def told (now : Word) (e : Event) : EventRecord :=
  { slot := 0, sequence := 0, kind := byteNat e.kind, detail := byteNat e.detail, subject := halfNat e.subject
    initiator := e.initiator, time := now, extra := e.extra }

/-- What the enabled ones of these events tell. -/
def toldOf (m : Shadow) (now : Word) (es : List Event) : List EventRecord :=
  (es.filter fun e => eventEnabled m e.kind).map (told now)

theorem toldOf_append (m : Shadow) (now : Word) (es fs : List Event) :
    toldOf m now (es ++ fs) = toldOf m now es ++ toldOf m now fs := by
  simp [toldOf]

/-- From `s` to `t` the records pending grow by these, of those events: all the enabled ones where the ring has room. -/
structure Records (s t : State) (es : List Event) (rs : List EventRecord) : Prop where
  events : t.poster.events = s.poster.events ++ rs
  allocation : t.poster.allocation = s.poster.allocation + BitVec.ofNat 8 rs.length
  some : (rs.map bare).Sublist (toldOf s.shadow s.wallTime es)
  all : unread s + es.length ≤ 255 → rs.map bare = toldOf s.shadow s.wallTime es

/-- From `s` to `t` these events are handed over, in this order, and the shadow and wall time stay. -/
structure Hands (es : List Event) (s t : State) : Prop where
  shadow : t.shadow = s.shadow
  wallTime : t.wallTime = s.wallTime
  records : ∃ rs, Records s t es rs

theorem records_length {s t : State} {es : List Event} {rs : List EventRecord} (h : Records s t es rs) :
    rs.length ≤ es.length := by
  have less := h.some.length_le
  rw [List.length_map] at less
  exact Nat.le_trans less (by rw [toldOf, List.length_map]; exact List.length_filter_le _ es)

/-- The ring fills by no more than one record an event. -/
theorem unread_le {s t : State} {es : List Event} (h : Hands es s t) : unread t ≤ unread s + es.length := by
  obtain ⟨shadow, _, rs, records⟩ := h
  have less := records_length records
  unfold unread unreadOf
  rw [shadow, records.allocation]
  simp only [BitVec.toNat_sub, BitVec.toNat_add, BitVec.toNat_ofNat]
  omega

theorem Hands.of_stays {s t : State} (shadow : t.shadow = s.shadow) (wallTime : t.wallTime = s.wallTime)
    (events : t.poster.events = s.poster.events) (allocation : t.poster.allocation = s.poster.allocation) :
    Hands [] s t :=
  ⟨shadow, wallTime, [], by simp [events], by simp [allocation], List.Sublist.refl _, fun _ => rfl⟩

theorem Hands.refl (s : State) : Hands [] s s := .of_stays rfl rfl rfl rfl

theorem Hands.trans {s t u : State} {es fs : List Event} (h : Hands es s t) (k : Hands fs t u) : Hands (es ++ fs) s u := by
  have more := unread_le h
  obtain ⟨shadow, wallTime, rs, first⟩ := h
  obtain ⟨shadow', wallTime', rs', second⟩ := k
  have tells : toldOf t.shadow t.wallTime fs = toldOf s.shadow s.wallTime fs := by rw [shadow, wallTime]
  refine ⟨shadow'.trans shadow, wallTime'.trans wallTime, rs ++ rs', ?_, ?_, ?_, fun room => ?_⟩
  · rw [second.events, first.events, List.append_assoc]
  · rw [second.allocation, first.allocation, List.length_append, BitVec.ofNat_add, BitVec.add_assoc]
  · rw [List.map_append, toldOf_append]
    exact first.some.append (tells ▸ second.some)
  · rw [List.length_append] at room
    rw [List.map_append, toldOf_append, first.all (by omega), second.all (by omega), tells]

theorem Hands.quiet_trans {s t u : State} {fs : List Event} (h : Hands [] s t) (k : Hands fs t u) : Hands fs s u := h.trans k

theorem Hands.trans_quiet {s t u : State} {es : List Event} (h : Hands es s t) (k : Hands [] t u) : Hands es s u := by
  have := h.trans k
  rwa [List.append_nil] at this

/-- One event handed over. -/
theorem hands_postEvent (e : Event) (s : State) : Hands [e] s (postEvent e s) := by
  unfold postEvent handedOver
  by_cases enabled : eventEnabled s.shadow e.kind = true
  · rw [if_pos enabled]
    have tells : toldOf s.shadow s.wallTime [e] = [told s.wallTime e] := by simp [toldOf, enabled]
    split
    · next full =>
      refine ⟨rfl, rfl, [], (List.append_nil _).symm, (BitVec.add_zero _).symm, List.nil_sublist _, fun room => ?_⟩
      have full' : unread s = 255 := full
      simp only [List.length_singleton] at room
      omega
    · exact ⟨rfl, rfl, [recordOf s.wallTime e s.poster], rfl, rfl, tells ▸ List.Sublist.refl _, fun _ => tells.symm⟩
  · rw [if_neg enabled]
    have tells : toldOf s.shadow s.wallTime [e] = [] := by simp [toldOf, enabled]
    exact ⟨rfl, rfl, [], (List.append_nil _).symm, (BitVec.add_zero _).symm, List.nil_sublist _, fun _ => tells.symm⟩

theorem newEvents_of {s t : State} {rs : List EventRecord} (events : t.poster.events = s.poster.events ++ rs) :
    newEvents s t = rs := by
  rw [newEvents, events, List.drop_left]

/-- Where the ring has room the new records tell of the enabled events, in order. -/
theorem Hands.newEvents {s t : State} {es : List Event} (h : Hands es s t) (room : unread s + es.length ≤ 255) :
    (Machine.newEvents s t).map bare = toldOf s.shadow s.wallTime es := by
  obtain ⟨_, _, rs, records⟩ := h
  rw [newEvents_of records.events]
  exact records.all room

/-- Every new record tells of one of the events. -/
theorem Hands.of_new {s t : State} {es : List Event} (h : Hands es s t) {r : EventRecord} (mem : r ∈ Machine.newEvents s t) :
    ∃ e ∈ es, eventEnabled s.shadow e.kind = true ∧ bare r = told s.wallTime e := by
  obtain ⟨_, _, rs, records⟩ := h
  rw [newEvents_of records.events] at mem
  have among := records.some.subset (List.mem_map_of_mem mem)
  obtain ⟨e, e_mem, same⟩ := List.mem_map.1 among
  obtain ⟨e_mem, enabled⟩ := List.mem_filter.1 e_mem
  exact ⟨e, e_mem, enabled, same.symm⟩

/-- Where the ring has room every enabled event has its record. -/
theorem Hands.new_of {s t : State} {es : List Event} (h : Hands es s t) (room : unread s + es.length ≤ 255) {e : Event}
    (mem : e ∈ es) (enabled : eventEnabled s.shadow e.kind = true) :
    ∃ r ∈ Machine.newEvents s t, bare r = told s.wallTime e := by
  have among : told s.wallTime e ∈ toldOf s.shadow s.wallTime es :=
    List.mem_map_of_mem (List.mem_filter.2 ⟨mem, enabled⟩)
  rw [← h.newEvents room] at among
  obtain ⟨r, r_mem, same⟩ := List.mem_map.1 among
  exact ⟨r, r_mem, same⟩

/-- A record that tells of an event, field by field. -/
theorem of_bare {r : EventRecord} {now : Word} {e : Event} (h : bare r = told now e) : r.kind = byteNat e.kind
    ∧ r.detail = byteNat e.detail ∧ r.subject = halfNat e.subject ∧ r.initiator = e.initiator ∧ r.time = now
    ∧ r.extra = e.extra := by
  obtain ⟨slot, sequence, kind, detail, subject, initiator, time, extra⟩ := r
  simp only [bare, told, EventRecord.mk.injEq] at h
  obtain ⟨_, _, rfl, rfl, rfl, rfl, rfl, rfl⟩ := h
  exact ⟨rfl, rfl, rfl, rfl, rfl, rfl⟩

theorem hands_fill {s t : State} (only : FillOnly s t) (ring : RingStays s t) : Hands [] s t :=
  .of_stays only.shadow only.wallTime ring.events ring.allocation

end Sys2Proof.Events

namespace Sys2Proof.StorePort

open Sys2Proof Sys2Proof.Machine Sys2Proof.Steps Sys2Proof.Fills Sys2Proof.Events

/-! ## The store timeout (O44) -/

/-- The state in which an entry has become QUARANTINED, before the exhaustion report. -/
def quarantinedAt (tag : Tag) (s : State) : State :=
  { s with tags := put s.tags tag .quarantined, poster := flaggedIf true .quarantined s.poster }

theorem quarantinedCount_full (s : State) (tag : Tag) :
    quarantinedCount (quarantinedAt tag s) = 32 ↔ ∀ t : Tag, t ≠ tag → s.tags[t] = .quarantined := by
  have size : (quarantinedAt tag s).tags.toList.length = 32 := Vector.length_toList
  have entry : ∀ t : Tag, (quarantinedAt tag s).tags[t] = if t = tag then .quarantined else s.tags[t] := by
    intro t
    show (put s.tags tag .quarantined)[t] = _
    split
    · next here => rw [here, put_self]
    · next other => exact put_of_ne _ _ _ _ (Ne.symm other)
  unfold quarantinedCount
  refine Iff.trans ⟨fun h => ?_, fun h => h.trans size⟩ (List.countP_eq_length.trans ⟨fun h t other => ?_, fun h e mem => ?_⟩)
  · exact h.trans size.symm
  · have mem : (quarantinedAt tag s).tags[t] ∈ (quarantinedAt tag s).tags.toList :=
      Vector.mem_toList_iff.2 (Vector.getElem_mem t.isLt)
    have := h _ mem
    rw [entry t, if_neg other] at this
    exact of_decide_eq_true this
  · obtain ⟨n, bound, rfl⟩ := Vector.getElem_of_mem (Vector.mem_toList_iff.1 mem)
    have at_n := entry ⟨n, bound⟩
    have here : (quarantinedAt tag s).tags[n] = .quarantined := by
      refine at_n.trans ?_
      split
      · rfl
      · next other => exact h _ other
    rw [here]
    rfl

/-- The state after an entry has become QUARANTINED: the exhaustion report is made where it was the last one (R18, R19). -/
structure Quarantined (tag : Tag) (s q : State) : Prop where
  tags : q.tags = put s.tags tag .quarantined
  exhaustion : q.exhaustion = if ∀ t : Tag, t ≠ tag → s.tags[t] = .quarantined then .spent else s.exhaustion
  issued : q.poster.issued = s.poster.issued
  producer : q.poster.producer = s.poster.producer
  flagged : PostItem.quarantined ∈ q.poster.flags
  room : (∃ t : Tag, t ≠ tag ∧ s.tags[t] ≠ .quarantined) → q = quarantinedAt tag s
  hands : ∃ es, es.length ≤ 1 ∧ Hands es s q
  lists : ListsStay s q
  counts : q.fillCount = s.fillCount
  only : PostOnly { s with tags := q.tags, exhaustion := q.exhaustion } q

theorem handedOver_flags (m : Shadow) (now : Word) (e : Event) (p : Poster) : p.flags ⊆ (handedOver m now e p).flags := by
  unfold handedOver
  split
  · split
    · exact Indicators.flags_flaggedIf _ _ _
    · exact List.Subset.refl _
  · exact List.Subset.refl _

theorem handedOver_slots (m : Shadow) (now : Word) (e : Event) (p : Poster) :
    (handedOver m now e p).issued = p.issued ∧ (handedOver m now e p).producer = p.producer := by
  unfold handedOver
  split
  · split <;> exact ⟨rfl, rfl⟩
  · exact ⟨rfl, rfl⟩

theorem quarantineTag_quarantined (tag : Tag) (s : State) : Quarantined tag s (quarantineTag tag s) := by
  have flagged : PostItem.quarantined ∈ (quarantinedAt tag s).poster.flags := mem_flaggedIf _ _ rfl
  have full := quarantinedCount_full s tag
  have stays : Hands [] s (quarantinedAt tag s) := .of_stays rfl rfl rfl rfl
  have same : quarantineTag tag s = reportExhausted (quarantinedAt tag s) := rfl
  rw [same]
  unfold reportExhausted
  split
  · next due =>
    obtain ⟨count, armed⟩ := due
    have all := full.1 count
    obtain ⟨issued, producer⟩ := handedOver_slots s.shadow s.wallTime evTagsExhausted (quarantinedAt tag s).poster
    refine ⟨rfl, ?_, issued, producer, handedOver_flags _ _ _ _ flagged, fun ⟨t, other, not⟩ => absurd (all t other) not,
      ⟨[evTagsExhausted], Nat.le_refl 1, ?_⟩, ⟨rfl, rfl, rfl, rfl⟩, rfl, ?_⟩
    · rw [if_pos all]
      rfl
    · have spent : Hands [] s { quarantinedAt tag s with exhaustion := .spent } := .of_stays rfl rfl rfl rfl
      exact spent.quiet_trans (hands_postEvent evTagsExhausted _)
    · constructor <;> rfl
  · next notDue =>
    refine ⟨rfl, ?_, rfl, rfl, flagged, fun _ => rfl, ⟨[], Nat.zero_le 1, stays⟩, ⟨rfl, rfl, rfl, rfl⟩, rfl, ?_⟩
    · split
      · next all =>
        cases spent : s.exhaustion with
        | armed => exact absurd ⟨full.2 all, spent⟩ notDue
        | spent => exact spent
      · rfl
    · constructor <;> rfl

/-! ### What the origin does -/

theorem postEnded_elsewhere {off : Nat} (outside : off < 0x4000 ∨ 0x5000 ≤ off) (s : State) : postEnded off s = s := by
  unfold postEnded ringSlot
  rw [if_neg (by omega)]

theorem postEnded_events (off : Nat) (s : State) : (postEnded off s).poster.events = s.poster.events := by
  unfold postEnded
  split
  · rfl
  · simp [advanceProducer, updateIrq, flagIf, flaggedIf]

theorem told_postEvent {c : ChannelId} {o : LastOutcome} {s u : State} (h : ChannelTold c o s u) (e : Event) :
    ChannelTold c o s (postEvent e u) := by
  have same := postEvent_only e u
  generalize postEvent e u = v at same ⊢
  have channels : ∀ d, getChannel d v = getChannel d u := by
    intro d
    cases d
    · exact same.channel0
    · exact same.channel1
  have length : listLength c v = listLength c u := by
    cases c
    · exact congrArg List.length same.exposure
    · exact congrArg List.length same.marking
  obtain ⟨outstanding, without, abandoned, resolve, border, swaps, goesOn⟩ := h
  rw [← channels] at outstanding
  simp only [← channels, ← same.exposure, ← same.marking, ← same.fillCount] at without abandoned resolve border
  simp only [← channels, ← length] at swaps goesOn
  exact ⟨outstanding, without, abandoned, resolve, border, swaps, goesOn⟩

/-- An origin that is told leaves the table, the queue and the ports alone. -/
structure OriginTold (s t : State) : Prop where
  tags : t.tags = s.tags
  exhaustion : t.exhaustion = s.exhaustion
  queue : t.queue = s.queue
  storeOut : t.storeOut = s.storeOut
  lines : t.lines = s.lines
  holds : t.holds = s.holds
  passWait : t.passWait = s.passWait

theorem originFault_told (own : OwnWrite) (o : LastOutcome) (s : State) : OriginTold s (originFault own o s) := by
  cases own with
  | expansion => exact ⟨rfl, rfl, rfl, rfl, rfl, rfl, rfl⟩
  | fill c k p =>
    have only := channelFault_only c o s
    exact ⟨only.tags, only.exhaustion, only.queue, only.storeOut, only.lines, only.holds, only.passWait⟩
  | post off =>
    show OriginTold s (postEnded off s)
    unfold postEnded
    split
    · exact ⟨rfl, rfl, rfl, rfl, rfl, rfl, rfl⟩
    · exact ⟨rfl, rfl, rfl, rfl, rfl, rfl, rfl⟩

/-- The state the store timeout of a BUSY entry leaves. -/
def timedOut (tag : Tag) (own : OwnWrite) (s : State) : State :=
  if reportsFault own then postEvent (evStoreTimeout tag own) (originFault own .timeout (quarantineTag tag s))
  else originFault own .timeout (quarantineTag tag s)

theorem timedOut_told (tag : Tag) (own : OwnWrite) (s : State) : OriginTold (quarantineTag tag s) (timedOut tag own s) := by
  unfold timedOut
  split
  · obtain ⟨tags, exhaustion, queue, storeOut, lines, holds, wait⟩ := originFault_told own .timeout (quarantineTag tag s)
    exact ⟨tags, exhaustion, queue, storeOut, lines, holds, wait⟩
  · exact originFault_told own .timeout _

theorem timedOut_flags (tag : Tag) (own : OwnWrite) (s : State) :
    (quarantineTag tag s).poster.flags ⊆ (timedOut tag own s).poster.flags := by
  have kept := Indicators.originFault_kept own .timeout (quarantineTag tag s)
  unfold timedOut
  split
  · exact (kept.trans (Indicators.postEvent_kept _ _)).flags
  · exact kept.flags

theorem storeTimeout_leaves {s : State} {tag : Tag} {issued : Word} {own : OwnWrite} (service : InService s)
    (busy : s.tags[tag] = .busy issued own) (reached : storeTimeout s.shadow ≤ (s.wallTime - issued).toNat) :
    exec (.storeTimeout tag) s = .next (timedOut tag own s) := by
  have due : timeoutReached s tag = true := by
    unfold timeoutReached
    rw [busy]
    exact decide_eq_true reached
  have expired : expireTag tag s = timedOut tag own s := by
    unfold expireTag
    rw [busy]
    rfl
  have told := timedOut_told tag own s
  have rest := (quarantineTag_quarantined tag s).only
  show Host.Outcome.next (inService (fun s => if timeoutReached s tag then expireTag tag s else s) s) = _
  rw [inService_leaves service] <;> rw [if_pos due, expired]
  · exact told.lines.trans rest.lines
  · exact told.holds.trans rest.holds
  · exact told.passWait.trans rest.passWait

theorem storeTimeout_notDue {s : State} {tag : Tag} (service : InService s) (notDue : timeoutReached s tag = false) :
    exec (.storeTimeout tag) s = .next s := by
  have stays : (if timeoutReached s tag then expireTag tag s else s) = s := by rw [notDue]; rfl
  show Host.Outcome.next (inService (fun s => if timeoutReached s tag then expireTag tag s else s) s) = _
  rw [inService_leaves service] <;> rw [stays]

/-- Settles O44: the entry is QUARANTINED and its exhaustion reported, then its origin is told. -/
theorem storeTimeoutQuarantines : Obligations.StoreTimeoutQuarantines := by
  intro s tag service
  refine ⟨fun early => storeTimeout_notDue service ?_, fun issued own busy reached => ?_⟩
  · unfold timeoutReached
    split
    · next issued own busy => exact decide_eq_false (Nat.not_le.2 (early issued own busy))
    · rfl
  have quarantined := quarantineTag_quarantined tag s
  have told := timedOut_told tag own s
  have kept := timedOut_flags tag own s
  refine ⟨_, storeTimeout_leaves service busy reached, told.tags.trans quarantined.tags,
    told.exhaustion.trans quarantined.exhaustion, kept quarantined.flagged, told.storeOut.trans quarantined.only.storeOut,
    told.queue.trans quarantined.only.queue, fun w p own_eq left => ?_, fun off own_eq left => ⟨?_, fun outside => ?_⟩,
    fun j k rest own_eq other issued => ?_, fun k new ended rest ordered own_eq issued all stop last => ?_,
    fun c k p own_eq => ?_⟩ <;> subst own_eq
  · show postEvent _ (quarantineTag tag s) = _
    rw [quarantined.room left]
    rfl
  · refine (postEnded_events off (quarantineTag tag s)).trans ?_
    rw [quarantined.room left]
    rfl
  · show postEnded off (quarantineTag tag s) = _
    rw [postEnded_elsewhere outside, quarantined.room left]
    rfl
  · have running : (quarantineTag tag s).ponrst = false := quarantined.only.ponrst.trans service.running
    have passed := postEnded_later (s := quarantineTag tag s) running other (quarantined.issued.trans issued)
    show (postEnded _ (quarantineTag tag s)).poster.producer = _ ∧ (postEnded _ (quarantineTag tag s)).irq = _
    rw [passed, passedTo, quarantined.only.shadow, quarantined.producer]
    exact ⟨rfl, rfl⟩
  · have running : (quarantineTag tag s).ponrst = false := quarantined.only.ponrst.trans service.running
    have passed := postEnded_oldest (s := quarantineTag tag s) running (quarantined.issued.trans issued) all stop
      ((last_of_ended ordered issued).trans last.symm)
    have timed : timedOut tag (.post (0x4000 + 16 * k.toNat)) s = passedTo new rest (quarantineTag tag s) := passed
    rw [timed, passedTo, quarantined.only.shadow, quarantined.producer]
    refine ⟨rfl, rfl, rfl, fun moved => mem_flaggedIf _ _ (by simpa using moved.symm), fun left => ?_⟩
    rw [quarantined.room left]
    rfl
  · obtain ⟨es, one, hands⟩ := quarantined.hands
    refine ⟨told_postEvent (told_congr (channelFault_told c .timeout (quarantineTag tag s)) quarantined.lists quarantined.counts) _,
      fun enabled room => ?_⟩
    have still := hands.trans_quiet (hands_fill (channelFault_only c .timeout _) (channelFault_ring c .timeout _))
    have filled := unread_le still
    have shadow := still.shadow
    show ∃ r, (postEvent _ (channelFault c .timeout (quarantineTag tag s))).poster.events.getLast? = some r ∧ _
    generalize channelFault c .timeout (quarantineTag tag s) = v at filled shadow
    obtain ⟨events, _⟩ := handedOver_events (m := v.shadow) (now := v.wallTime) (p := v.poster)
      (e := evStoreTimeout tag (.fill c k p)) (shadow.symm ▸ enabled) (show unread v ≠ 255 by omega)
    refine ⟨recordOf v.wallTime (evStoreTimeout tag (.fill c k p)) v.poster, ?_, rfl, ?_, rfl, rfl⟩
    · exact (congrArg List.getLast? events).trans List.getLast?_concat
    · cases c <;> rfl

/-! ## EXPANSION granted (O40) -/

/-- From `s` to `t` records only join the tail of the queue. -/
def QueueGrows (s t : State) : Prop := s.queue <+: t.queue

theorem QueueGrows.refl (s : State) : QueueGrows s s := List.prefix_rfl

theorem QueueGrows.trans {s t u : State} (h : QueueGrows s t) (k : QueueGrows t u) : QueueGrows s u :=
  List.IsPrefix.trans h k

theorem enqueue_grows (r : Record) (s : State) : QueueGrows s (enqueue r s) := List.prefix_append _ _

theorem finishAperture_grows (t : Txn) (src : SourceId) (s : State) : QueueGrows s (finishAperture t src s) := by
  unfold finishAperture
  split
  · exact .refl s
  · unfold enterPass
    split <;> exact .refl s

theorem expandFrom_grows (fuel : Nat) (run : Run) (place : Position) (s : State) :
    QueueGrows s (expandFrom fuel run place s).1 := by
  induction fuel generalizing place s with
  | zero => exact .refl s
  | succ fuel ih =>
    unfold expandFrom
    split
    · exact .refl s
    · next r p _ =>
      split
      · exact (enqueue_grows r s).trans (ih _ _)
      · exact .refl s

theorem walkTurns_grows (l : List Held) (s : State) : QueueGrows s (walkTurns l s).1 := by
  induction l generalizing s with
  | nil => exact .refl s
  | cons h rest ih =>
    unfold walkTurns
    split
    · exact (finishAperture_grows _ _ s).trans (ih _)
    · next r p _ =>
      split
      · exact (enqueue_grows r s).trans (ih _)
      · exact ih s

theorem walkContinue_grows (l : List (Held × Bool)) (s : State) : QueueGrows s (walkContinue l s).1 := by
  induction l generalizing s with
  | nil => exact .refl s
  | cons turn rest ih =>
    obtain ⟨h, admitted⟩ := turn
    cases admitted with
    | false => exact ih s
    | true =>
      have expanded := expandFrom_grows (Config.shareLimit + 1) h.run (placeAfter h.waiting h.place) s
      unfold walkContinue expandStretch
      split
      · next t ended =>
        rw [ended] at expanded
        exact (expanded.trans (finishAperture_grows _ _ t)).trans (ih _)
      · next t r p ended =>
        rw [ended] at expanded
        exact expanded.trans (ih t)

/-- A held write whose waiting record is in date and fails the admission test. -/
def waits (s : State) (h : Held) : Prop := inDate s h = true ∧ admissible s h.waiting.source = false

theorem offered_inDate {s : State} {h : Held} (inDate : Machine.inDate s h = true) :
    offeredAtTurn s h = some (h.waiting, h.place) ∧ withWaiting h h.waiting h.place = h := by
  simp only [Machine.inDate, Bool.and_eq_true, beq_iff_eq, Bool.not_eq_true'] at inDate
  obtain ⟨epoch, latched⟩ := inDate
  refine ⟨if_pos ⟨epoch, latched⟩, ?_⟩
  obtain ⟨t, run, waiting, place, l⟩ := h
  obtain rfl : l = false := latched
  rfl

/-- The turn of a write that waits changes nothing. -/
theorem walkTurns_waits {s : State} {h : Held} (waiting : waits s h) (rest : List Held) :
    walkTurns (h :: rest) s = ((walkTurns rest s).1, (h, false) :: (walkTurns rest s).2) := by
  obtain ⟨inDate, refused⟩ := waiting
  obtain ⟨offered, same⟩ := offered_inDate inDate
  rw [walkTurns, offered]
  dsimp only
  rw [refused, same]
  rfl

theorem walkTurns_older {s : State} {older : List Held} (waiting : ∀ g ∈ older, waits s g) (rest : List Held) :
    (walkTurns (older ++ rest) s).1 = (walkTurns rest s).1
      ∧ (walkTurns (older ++ rest) s).2 = older.map (fun g => (g, false)) ++ (walkTurns rest s).2 := by
  induction older with
  | nil => exact ⟨rfl, rfl⟩
  | cons g older ih =>
    obtain ⟨state, turns⟩ := ih fun g mem => waiting g (List.mem_cons_of_mem _ mem)
    rw [List.cons_append, walkTurns_waits (waiting g List.mem_cons_self)]
    exact ⟨state, congrArg ((g, false) :: ·) turns⟩

/-- The oldest held write that passes the admission test is the first that is admitted (R93). -/
theorem walk_admits {s : State} {older newer : List Held} {h : Held} (list : s.holds = older ++ h :: newer)
    (waiting : ∀ g ∈ older, waits s g) (inDate : inDate s h = true) (room : admissible s h.waiting.source = true) :
    (s.queue ++ [h.waiting]) <+: (walk s).queue := by
  have turn : (walkTurns (h :: newer) s).1 = (walkTurns newer (enqueue h.waiting s)).1 := by
    rw [walkTurns, (offered_inDate inDate).1]
    dsimp only
    rw [room]
    rfl
  have grown : QueueGrows (enqueue h.waiting s) (walkTurns s.holds s).1 := by
    rw [list, (walkTurns_older waiting _).1, turn]
    exact walkTurns_grows newer _
  exact List.IsPrefix.trans grown (walkContinue_grows (walkTurns s.holds s).2 (walkTurns s.holds s).1)

theorem walkContinue_refused (l : List Held) (s : State) : walkContinue (l.map fun g => (g, false)) s = (s, l) := by
  induction l with
  | nil => rfl
  | cons g l ih =>
    rw [List.map_cons, walkContinue, ih]

/-- A walk in which no waiting record passes changes nothing. -/
theorem walk_waits {s : State} (waiting : ∀ g ∈ s.holds, waits s g) : walk s = s := by
  have turns := walkTurns_older waiting []
  rw [List.append_nil] at turns
  obtain ⟨state, turns⟩ := turns
  unfold walk
  dsimp only
  rw [state, turns, walkTurns, List.append_nil, walkContinue_refused]

/-- The write of a record: four bytes for each pixel, the first lowest (R92). -/
theorem recordTxn_eq (tag : Tag) (r : Record) : recordTxn tag r = {
    kind := .write, initiator := 15, linkTag := byteNat tag.val, address := r.address
    length := 4 * r.pixels.length, data := r.pixels.flatMap (fun px => wordBytes px.value)
    strobes := r.pixels.flatMap (fun px => [px.strobes.getLsbD 0, px.strobes.getLsbD 1, px.strobes.getLsbD 2,
      px.strobes.getLsbD 3]) } := by
  have length : ∀ l : List Pixel, (l.flatMap fun px => wordBytes px.value).length = 4 * l.length := by
    intro l
    induction l with
    | nil => rfl
    | cons px l ih =>
      rw [List.flatMap_cons, List.length_append, ih, List.length_cons, show (wordBytes px.value).length = 4 from rfl]
      omega
  unfold recordTxn ownTxn pixelBytes
  rw [length]
  rfl

/-- The state in which the head record has left as one write, before the walk. -/
def headIssued (tag : Tag) (r : Record) (rest : List Record) (s : State) : State :=
  { s with
    queue := rest, tags := put s.tags tag (.busy s.wallTime (.expansion r.window r.panel))
    storeOut := s.storeOut ++ [recordTxn tag r], lastGranted := .expansion
    poster := flaggedIf true .occupancy s.poster }

/-- Settles O40: the head record is issued with the lowest FREE tag, and a walk of the state after it follows. -/
theorem expansionGranted : Obligations.ExpansionGranted := by
  intro s r rest tag service head granted free
  obtain ⟨isFree, lowest⟩ := find?_finRange_eq_some.1 free
  have issued : opportunity s = walk (headIssued tag r rest s) := by
    rw [storeOpportunity_granted granted]
    refine (grant_withTag free grantExpansion).trans ?_
    unfold grantExpansion
    split
    · next none => exact absurd (none.symm.trans head) (List.cons_ne_nil r rest).symm
    · next r' rest' queue =>
      obtain ⟨rfl, rfl⟩ := List.cons.inj (queue.symm.trans head)
      rfl
  have exec : exec .storeOpportunity s = .next (serve (walk (headIssued tag r rest s))) := by
    show Host.Outcome.next (inService opportunity s) = _
    rw [inService_serves service, issued]
  have only := walk_only (headIssued tag r rest s)
  refine ⟨fun t before => by simpa using lowest t before, by simpa using isFree, ⟨_, exec, rfl, fun older newer h list => ?_, walk_waits⟩,
    _, exec, only.tags, only.storeOut.trans ?_, only.lastGranted, fun none => ?_⟩
  · exact walk_admits list
  · exact congrArg (fun w => s.storeOut ++ [w]) (recordTxn_eq tag r)
  · have stays : walk (headIssued tag r rest s) = headIssued tag r rest s :=
      walk_waits fun g mem => by
        have none' : (headIssued tag r rest s).holds = [] := none
        rw [none'] at mem
        cases mem
    rw [stays]
    rfl

end Sys2Proof.StorePort

/-! PROOFS of O23, O24, O31, O33, O34 and O35: what a console's control write of whole words does. -/

namespace Sys2Proof.ControlWrites

open Sys2Proof Sys2Proof.Machine Sys2Proof.ClaimRequests Sys2Proof.Events

/-! ## The shadow after a write -/

section Shadow

variable {m : Shadow} {off : Nat} {ws : List Word}

/-- The words just written read back. -/
theorem shadowWord_written (wf : shadowWf m = true) {k : Nat} (within : k < ws.length) :
    shadowWord (shadowWriteBytes m off (bytesOf ws)) (off + 4 * k) = ws[k] := by
  have byte : ∀ j, j < 4 → shadowRead (shadowWriteBytes m off (bytesOf ws)) (off + 4 * k + j) = byteOf ws[k] j := by
    intro j small
    have inside : 4 * k + j < (bytesOf ws).length := by rw [bytesOf_length]; omega
    rw [Nat.add_assoc, shadowRead_writeBytes m off _ _ wf inside, ← bytesOf_getD ws k j within small,
      List.getD_eq_getElem?_getD, List.getElem?_eq_getElem inside]
    rfl
  have first := byte 0 (by decide)
  rw [Nat.add_zero] at first
  rw [shadowWord, first, byte 1 (by decide), byte 2 (by decide), byte 3 (by decide), wordOf_byteOf]

/-- Every word beside the write reads as before. -/
theorem shadowWord_beside {x : Nat} (beside : x + 4 ≤ off ∨ off + 4 * ws.length ≤ x) :
    shadowWord (shadowWriteBytes m off (bytesOf ws)) x = shadowWord m x := by
  have byte : ∀ j, j < 4 → shadowRead (shadowWriteBytes m off (bytesOf ws)) (x + j) = shadowRead m (x + j) := by
    intro j small
    exact shadowRead_writeBytes_other m off _ _ (by rw [bytesOf_length]; omega)
  have first := byte 0 (by decide)
  rw [Nat.add_zero] at first
  rw [shadowWord, shadowWord, first, byte 1 (by decide), byte 2 (by decide), byte 3 (by decide)]

/-- STAGE reads as before beside a write that touches no staging record. -/
theorem stageWindow_beside (beside : off + 4 * ws.length ≤ 0x2000) (w : WindowId) :
    stageWindow (shadowWriteBytes m off (bytesOf ws)) w = stageWindow m w := by
  have word : ∀ k, shadowWord (shadowWriteBytes m off (bytesOf ws)) (stageOffset w + k) = shadowWord m (stageOffset w + k) :=
    fun k => shadowWord_beside (.inr (by rw [stageOffset]; omega))
  have first := word 0
  rw [Nat.add_zero] at first
  unfold stageWindow
  simp only [word, first]

end Shadow

/-! ## Taking the write -/

section Taking

variable {s : State} {f : Sender} {off : Nat} {ws : List Word}

/-- A write of whole words that lies inside one block of the region. -/
structure Aligned (off : Nat) (ws : List Word) : Prop where
  aligned : off % 4 = 0
  some : 0 < ws.length
  block : off % 256 + 4 * ws.length ≤ 256
  region : off < Config.controlBytes

/-- A console's write of whole words, all accepted: the shadow takes them, they have their effects, the write is passed, and
the port takes what it can (R8, R152). -/
theorem arrive_whole (writes : ConsoleWrites s f) (place : Aligned off ws)
    (accepted : ∀ w ∈ wordsAt off ws, wordRefusal s f.initiator w = none) :
    arrive (controlTxn s f off (bytesOf ws)) s = serve (enterPass (controlTxn s f off (bytesOf ws))
      (effectsPhase f.initiator s.shadow (wordsAt off ws) (written s off ws))) := by
  obtain ⟨aligned, some, block, region⟩ := place
  rw [arrive_taken writes.taken,
    take_controlTxn s f off ws (isConsole_ne s _ writes.console) aligned some block region,
    takeControl_accepted s f off ws region accepted]
  rfl

/-- The same where the effects leave what waits at the port alone. -/
theorem arrive_effects {u : State} (writes : ConsoleWrites s f) (place : Aligned off ws)
    (accepted : ∀ w ∈ wordsAt off ws, wordRefusal s f.initiator w = none)
    (effects : effectsPhase f.initiator s.shadow (wordsAt off ws) (written s off ws) = u)
    (lines : u.lines = s.lines) (holds : u.holds = s.holds) (wait : u.passWait = s.passWait) :
    arrive (controlTxn s f off (bytesOf ws)) s = enterPass (controlTxn s f off (bytesOf ws)) u := by
  have settled : Settled u := (readyInitiators_congr lines holds wait).trans writes.settled
  rw [arrive_whole writes place accepted, effects]
  exact serve_of_settled (settled_enterPass settled _)

theorem running_of_writes (writes : ConsoleWrites s f) : s.ponrst = false := by
  have taken := writes.taken
  simp only [canTake, Bool.and_eq_true, Bool.not_eq_true'] at taken
  exact taken.1.1

/-! ## Which words are open -/

/-- The words that every console may write in every mode: the wall settings beside the geometry, the command block, the
consumer index and the source records (R153). -/
def isOpen (off : Nat) : Prop :=
  (0x1C ≤ off ∧ off < 0x200) ∨ (0x400 ≤ off ∧ off < 0x800) ∨ (0x1000 ≤ off ∧ off < 0x2000)

theorem wordRefusal_open {i : Initiator} {w : ControlWord} (console : isConsole s i = true) (open_ : isOpen w.offset) :
    wordRefusal s i w = none := by
  have notPosted : isPartPosted w.offset = false := by
    rw [← Bool.not_eq_true, isPartPosted_iff]
    unfold isOpen at open_
    omega
  have openInRun : isSetupOnly w.offset = false := by
    rw [← Bool.not_eq_true, isSetupOnly_iff]
    unfold isOpen at open_
    omega
  have notStaging : stagingWindow w.offset = none := by
    refine Option.eq_none_iff_forall_not_mem.2 fun u staged => ?_
    have bounds := stagingWindow_iff.1 staged
    unfold isOpen at open_
    omega
  have notRequest : requestWindow w.offset = none := by
    refine Option.eq_none_iff_forall_not_mem.2 fun u requested => ?_
    have place := requestWindow_iff.1 requested
    unfold isOpen at open_
    omega
  simp [wordRefusal, console, notPosted, openInRun, notStaging, notRequest]

theorem accepted_open {i : Initiator} (console : isConsole s i = true) (open_ : ∀ k, k < ws.length → isOpen (off + 4 * k)) :
    ∀ w ∈ wordsAt off ws, wordRefusal s i w = none := by
  intro w mem
  obtain ⟨k, small, rfl⟩ := List.mem_map.1 mem
  exact wordRefusal_open console (open_ k (List.mem_range.1 small))

/-! ## Which words have effects -/

theorem wordEffect_interrupt (i : Initiator) (before : Shadow) (k : Nat) (v : Word) (s : State) :
    wordEffect i before ⟨k, 0x34, v⟩ s = updateIrq s := rfl

theorem wordEffect_indicator (i : Initiator) (before : Shadow) (w : ControlWord) (s : State)
    (definition : 0x40 ≤ w.offset ∧ w.offset < 0x60) : wordEffect i before w s = evaluateIndicators s := by
  rw [wordEffect, if_neg (by omega), if_pos definition]

theorem wordEffect_argument (i : Initiator) (before : Shadow) (k : Nat) (v : Word) (s : State) :
    wordEffect i before ⟨k, 0x104, v⟩ s = s := by
  simp [wordEffect, sourceWord, requestWindow]

theorem wordEffect_consumer (i : Initiator) (before : Shadow) (k : Nat) (v : Word) (s : State) :
    wordEffect i before ⟨k, 0x400, v⟩ s = consumerWritten s := by
  simp [wordEffect]

/-- A word of a source's record has the effect of its place in the record. -/
theorem wordEffect_source (i : Initiator) (before : Shadow) (src : SourceId) (w : ControlWord) {r : Nat} (small : r < 64)
    (place : w.offset = sourceOffset src + r) (s : State) : wordEffect i before w s = sourceEffect i before src r s := by
  have here : sourceWord w.offset = some (src, r) := by
    have bound := src.isLt
    unfold sourceWord
    rw [dif_pos (by rw [place, sourceOffset]; omega)]
    simp only [Option.some.injEq, Prod.mk.injEq, Fin.ext_iff, place, sourceOffset]
    omega
  have offset : 0x1000 ≤ w.offset := by rw [place, sourceOffset]; omega
  rw [wordEffect, if_neg (by omega), if_neg (by omega), if_neg (by omega), if_neg (by omega), here]

/-- A word of a staging record has no effect beside the shadow's. -/
theorem wordEffect_staging (i : Initiator) (before : Shadow) (w : ControlWord) (s : State)
    (staging : 0x2000 ≤ w.offset ∧ w.offset < 0x3000) : wordEffect i before w s = s := by
  have noSource : sourceWord w.offset = none := dif_neg (by omega)
  have noRequest : requestWindow w.offset = none := by
    refine Option.eq_none_iff_forall_not_mem.2 fun u requested => ?_
    have place := requestWindow_iff.1 requested
    omega
  rw [wordEffect, if_neg (by omega), if_neg (by omega), if_neg (by omega), if_neg (by omega), noSource, noRequest]

end Taking

/-! ## Parameter writes (O33, O35) -/

/-- A write of one word that is open, by its effect. -/
theorem arrive_word {s u : State} {f : Sender} {off : Nat} {v : Word} (writes : ConsoleWrites s f) (aligned : off % 4 = 0)
    (open_ : isOpen off) (effect : wordEffect f.initiator s.shadow ⟨0, off, v⟩ (written s off [v]) = u)
    (lines : u.lines = s.lines) (holds : u.holds = s.holds) (wait : u.passWait = s.passWait) :
    arrive (controlTxn s f off (bytesOf [v])) s = enterPass (controlTxn s f off (bytesOf [v])) u := by
  have region : off < Config.controlBytes := by
    unfold isOpen at open_
    simp only [Config.controlBytes]
    omega
  refine arrive_effects writes ⟨aligned, Nat.one_pos, by rw [List.length_singleton]; omega, region⟩ ?_ effect lines holds wait
  refine accepted_open writes.console fun k small => ?_
  obtain rfl : k = 0 := by simpa using small
  exact open_

theorem shadowWord_of_one {s : State} {f : Sender} (writes : ConsoleWrites s f) (off : Nat) (v : Word) :
    shadowWord (written s off [v]).shadow off = v :=
  shadowWord_written (ws := [v]) (k := 0) writes.shadow Nat.one_pos

theorem consumerIndex_written {s : State} {f : Sender} (writes : ConsoleWrites s f) (value : Word) :
    consumerIndex (written s 0x400 [value]).shadow = value.extractLsb' 0 8 :=
  shadowRead_writeBytes s.shadow 0x400 0 (bytesOf [value]) writes.shadow (by decide : 0 < 4)

/-- Settles O33. -/
theorem consumerIndexTaken : Obligations.ConsumerIndexTaken := by
  rintro s f value v p writes rfl rfl
  have index := consumerIndex_written writes value
  have running := running_of_writes writes
  have enabled : interruptEnabled (written s 0x400 [value]).shadow = interruptEnabled s.shadow :=
    congrArg (fun w : Word => w.getLsbD 0) (shadowWord_beside (.inl (by decide)))
  refine ⟨congrArg Host.Outcome.next (arrive_word writes (by decide) (.inr (.inl ⟨by decide, by decide⟩)) ?_ rfl rfl rfl), index⟩
  rw [wordEffect_consumer]
  have reported : overflowReported (written s 0x400 [value]).shadow s.wallTime s.poster
      = if s.poster.overflow = true ∧ (s.poster.allocation - value.extractLsb' 0 8).toNat < 255 then
        { flaggedIf true .producer (allocated s.wallTime (evRingOverflow s.poster.dropped) s.poster) with
          overflow := false, dropped := 0 }
      else s.poster := by
    rw [← index]
    rfl
  have producer : (overflowReported (written s 0x400 [value]).shadow s.wallTime s.poster).producer = s.poster.producer := by
    rw [reported]
    split <;> rfl
  unfold consumerWritten
  show updateIrq { written s 0x400 [value] with
    poster := overflowReported (written s 0x400 [value]).shadow s.wallTime s.poster } = _
  have level : irqLevel { written s 0x400 [value] with
      poster := overflowReported (written s 0x400 [value]).shadow s.wallTime s.poster }
      = (interruptEnabled s.shadow && s.poster.producer != value.extractLsb' 0 8) := by
    show (!s.ponrst && interruptEnabled (written s 0x400 [value]).shadow
      && !((overflowReported (written s 0x400 [value]).shadow s.wallTime s.poster).producer
        == consumerIndex (written s 0x400 [value]).shadow)) = _
    rw [running, enabled, producer, index]
    rfl
  rw [updateIrq, level, reported]

theorem halfField_of_half (n : Half) : field (n.setWidth 32) 0 16 = n.toNat := by
  have := n.isLt
  simp only [field, BitVec.extractLsb'_toNat, BitVec.toNat_setWidth, Nat.shiftRight_zero]
  omega

theorem bucketThreshold_written {s : State} {f : Sender} (writes : ConsoleWrites s f) (src : SourceId) (n : Half) :
    bucketThreshold (written s (thresholdOffset src) [n.setWidth 32]).shadow src = max 1 n.toNat := by
  have word := shadowWord_of_one writes (thresholdOffset src) (n.setWidth 32)
  unfold bucketThreshold halfField
  rw [show sourceOffset src + 0x24 = thresholdOffset src from rfl, word, halfField_of_half]

/-- A cadence record that keeps its state and baseline does not flag its word. -/
theorem setCadence_unflagged {s : State} {src : SourceId} {c : Cadence} (state : c.state = s.cadence[src].state)
    (baseline : c.baseline = s.cadence[src].baseline) : setCadence src c s = { s with cadence := put s.cadence src c } := by
  unfold setCadence flagIf flaggedIf
  simp [state, baseline]

/-- Settles O35: the two words and the effect of each. -/
theorem thresholdAndInterruptEnableTaken : Obligations.ThresholdAndInterruptEnableTaken := by
  intro s f src n enable writes
  have place : 0x1024 + 64 * src.val = thresholdOffset src := by
    simp only [thresholdOffset, sourceOffset]
    omega
  have bound := src.isLt
  rw [place]
  refine ⟨congrArg Host.Outcome.next ?_, congrArg Host.Outcome.next ?_⟩
  · have threshold := bucketThreshold_written writes src n
    refine arrive_word (off := thresholdOffset src) writes (by simp only [thresholdOffset, sourceOffset]; omega)
      (.inr (.inr ⟨by simp only [thresholdOffset, sourceOffset]; omega, by simp only [thresholdOffset, sourceOffset]; omega⟩))
      ?_ rfl rfl rfl
    rw [wordEffect_source f.initiator s.shadow src _ (by decide : 0x24 < 64) rfl]
    show bucketThresholdWritten src s.shadow (written s (thresholdOffset src) [n.setWidth 32]) = _
    unfold bucketThresholdWritten
    rw [threshold]
    show (if _ ∧ (s.cadence[src].bucket ≥ _ ∨ s.cadence[src].bucket ≤ _) then _ else _) = _
    by_cases due : bucketThreshold s.shadow src ≠ max 1 n.toNat
        ∧ ((max 1 n.toNat : Nat) ≤ s.cadence[src].bucket ∨ s.cadence[src].bucket ≤ -((max 1 n.toNat : Nat) : Int))
    · refine (if_pos due).trans ?_
      rw [if_pos due]
      exact setCadence_unflagged (s := written s (thresholdOffset src) [n.setWidth 32]) (c := { s.cadence[src] with bucket := 0 })
        rfl rfl
    · refine (if_neg due).trans ?_
      rw [if_neg due]
      rfl
  · refine arrive_word (off := 0x34) writes (by decide) (.inl ⟨by decide, by decide⟩) ?_ rfl rfl rfl
    have running := running_of_writes writes
    have word := shadowWord_of_one writes 0x34 (wordNat enable.toNat)
    have enabled : interruptEnabled (written s 0x34 [wordNat enable.toNat]).shadow = enable := by
      unfold interruptEnabled
      rw [word]
      cases enable <;> rfl
    have index : consumerIndex (written s 0x34 [wordNat enable.toNat]).shadow = consumerIndex s.shadow :=
      shadowRead_writeBytes_other s.shadow 0x34 0x400 _ (.inr (by decide : 0x34 + 4 ≤ 0x400))
    rw [wordEffect_interrupt]
    have level : irqLevel (written s 0x34 [wordNat enable.toNat])
        = (enable && s.poster.producer != consumerIndex s.shadow) := by
      show (!s.ponrst && interruptEnabled (written s 0x34 [wordNat enable.toNat]).shadow
        && !(s.poster.producer == consumerIndex (written s 0x34 [wordNat enable.toNat]).shadow)) = _
      rw [running, enabled, index]
      rfl
    rw [updateIrq, level]

/-! ## Commands -/

/-- What the port reads to decide which transaction it takes stays. -/
structure PortStays (s u : State) : Prop where
  lines : u.lines = s.lines
  holds : u.holds = s.holds
  passWait : u.passWait = s.passWait

theorem PortStays.refl (s : State) : PortStays s s := ⟨rfl, rfl, rfl⟩

theorem commandWord_fields (q : Half) (code : Byte) :
    field (commandWord q code) 0 16 = q.toNat ∧ field (commandWord q code) 16 8 = code.toNat := by
  have hq := q.isLt
  have hc := code.isLt
  simp only [field, commandWord, wordNat, BitVec.extractLsb'_toNat, BitVec.toNat_ofNat, Nat.shiftRight_eq_div_pow]
  omega

/-- The state a command ends in: its action, then its result (R158). -/
def commandDone (i : Initiator) (q : Half) (code : Byte) (n : Half) (v : State) : State :=
  commandEnds q code (commandAction i code.toNat q n v).2.1 (commandAction i code.toNat q n v).2.2
    (commandAction i code.toNat q n v).1

theorem runCommand_done {i : Initiator} {q n : Half} {code : Byte} {v : State}
    (word : shadowWord v.shadow 0x100 = commandWord q code)
    (argument : halfNat (field (shadowWord v.shadow 0x104) 0 16) = n) : runCommand i v = commandDone i q code n v := by
  obtain ⟨sequence, command⟩ := commandWord_fields q code
  have half : halfNat q.toNat = q := BitVec.ofNat_toNat 16 q
  have byte : byteNat code.toNat = code := BitVec.ofNat_toNat 8 code
  unfold runCommand
  dsimp only
  rw [word, argument, sequence, command, half, byte]
  rfl

section Commands

variable {s : State} {f : Sender} {q n : Half} {code : Byte}

/-- A command with its argument, taken. -/
theorem arrive_argument (writes : ConsoleWrites s f) : arrive (argumentTxn s f q code n) s
    = serve (enterPass (argumentTxn s f q code n)
      (commandDone f.initiator q code n (written s 0x100 [commandWord q code, n.setWidth 32]))) := by
  have place : Aligned 0x100 [commandWord q code, n.setWidth 32] := ⟨by decide, by simp, by simp, by decide⟩
  have accepted : ∀ w ∈ wordsAt 0x100 [commandWord q code, n.setWidth 32], wordRefusal s f.initiator w = none :=
    accepted_open writes.console fun k small => .inl (by simp only [List.length_cons, List.length_nil] at small; omega)
  have word : shadowWord (written s 0x100 [commandWord q code, n.setWidth 32]).shadow 0x100 = commandWord q code :=
    shadowWord_written (ws := [commandWord q code, n.setWidth 32]) (k := 0) writes.shadow (by simp)
  have argument : shadowWord (written s 0x100 [commandWord q code, n.setWidth 32]).shadow 0x104 = n.setWidth 32 :=
    shadowWord_written (ws := [commandWord q code, n.setWidth 32]) (k := 1) writes.shadow (by simp)
  have half : halfNat (field (shadowWord (written s 0x100 [commandWord q code, n.setWidth 32]).shadow 0x104) 0 16) = n := by
    rw [argument, halfField_of_half]
    exact BitVec.ofNat_toNat 16 n
  rw [argumentTxn, arrive_whole writes place accepted, ← runCommand_done word half]
  exact congrArg (fun u => serve (enterPass _ u)) (wordEffect_argument f.initiator s.shadow 1 (n.setWidth 32) _)

/-- A command alone, taken: its argument is the shadow's (R158). -/
theorem arrive_command (writes : ConsoleWrites s f) : arrive (commandTxn s f q code) s
    = serve (enterPass (commandTxn s f q code) (commandDone f.initiator q code
      (halfNat (field (shadowWord s.shadow 0x104) 0 16)) (written s 0x100 [commandWord q code]))) := by
  have place : Aligned 0x100 [commandWord q code] := ⟨by decide, by simp, by simp, by decide⟩
  have accepted : ∀ w ∈ wordsAt 0x100 [commandWord q code], wordRefusal s f.initiator w = none :=
    accepted_open writes.console fun k small => .inl (by simp only [List.length_cons, List.length_nil] at small; omega)
  have word := shadowWord_of_one writes 0x100 (commandWord q code)
  have argument : shadowWord (written s 0x100 [commandWord q code]).shadow 0x104 = shadowWord s.shadow 0x104 :=
    shadowWord_beside (.inr (by simp))
  rw [commandTxn, arrive_whole writes place accepted, ← runCommand_done word (by rw [argument])]
  rfl

theorem argument_quiet {v u : State} {outcome : CommandOutcome} {detail : Vector Byte 3} (writes : ConsoleWrites s f)
    (from_ : v = written s 0x100 [commandWord q code, n.setWidth 32])
    (action : commandAction f.initiator code.toNat q n v = (u, outcome, detail)) (port : PortStays s u) :
    arrive (argumentTxn s f q code n) s
      = enterPass (argumentTxn s f q code n) (commandEnds q code outcome detail u) := by
  subst from_
  have settled : Settled (commandEnds q code outcome detail u) :=
    (readyInitiators_congr port.lines port.holds port.passWait).trans writes.settled
  rw [arrive_argument writes, commandDone, action]
  exact serve_of_settled (settled_enterPass settled _)

theorem command_quiet {v u : State} {outcome : CommandOutcome} {detail : Vector Byte 3} (writes : ConsoleWrites s f)
    (from_ : v = written s 0x100 [commandWord q code])
    (action : ∀ n, commandAction f.initiator code.toNat q n v = (u, outcome, detail)) (port : PortStays s u) :
    arrive (commandTxn s f q code) s
      = enterPass (commandTxn s f q code) (commandEnds q code outcome detail u) := by
  subst from_
  have settled : Settled (commandEnds q code outcome detail u) :=
    (readyInitiators_congr port.lines port.holds port.passWait).trans writes.settled
  rw [arrive_command writes, commandDone, action]
  exact serve_of_settled (settled_enterPass settled _)

end Commands

theorem commandAction_unnamed {i : Initiator} {code : Byte} {q n : Half} {v : State} (unnamed : namedCommand code = false) :
    commandAction i code.toNat q n v = (v, .unknown, noDetail) := by
  have outside : ¬ (1 ≤ code.toNat ∧ code.toNat ≤ 6) := by
    simpa only [namedCommand, Bool.and_eq_false_iff, decide_eq_false_iff_not, ← Classical.not_and_iff_not_or_not] using unnamed
  obtain zero | ⟨k, more⟩ : code.toNat = 0 ∨ ∃ k, code.toNat = k + 7 := by
    by_cases zero : code.toNat = 0
    · exact .inl zero
    · exact .inr ⟨code.toNat - 7, by omega⟩
  · rw [zero]
    rfl
  · rw [more]
    rfl

/-- Settles O23: the four actions that leave the state as it is. -/
theorem commandsWithoutEffect : Obligations.CommandsWithoutEffect := by
  intro s f q n code writes
  refine ⟨fun unnamed => ?_, fun run flying => ?_, fun run => ?_, fun setup => ?_⟩
  · exact congrArg Host.Outcome.next (argument_quiet writes rfl (commandAction_unnamed unnamed) ⟨rfl, rfl, rfl⟩)
  · have action : commandAction f.initiator (1 : Byte).toNat q n (written s 0x100 [commandWord q 1, n.setWidth 32])
        = (written s 0x100 [commandWord q 1, n.setWidth 32], .busy, noDetail) := if_pos ⟨run, flying⟩
    exact congrArg Host.Outcome.next (argument_quiet writes rfl action ⟨rfl, rfl, rfl⟩)
  · refine congrArg Host.Outcome.next (command_quiet writes rfl (fun n => ?_) ⟨rfl, rfl, rfl⟩)
    show commandRun f.initiator q _ = _
    unfold commandRun
    rw [show (written s 0x100 [commandWord q 2]).mode = .run from run]
  · refine congrArg Host.Outcome.next (command_quiet writes rfl (fun n => ?_) ⟨rfl, rfl, rfl⟩)
    show commandSetup f.initiator q _ = _
    unfold commandSetup
    rw [show (written s 0x100 [commandWord q 3]).mode = .setup from setup]

/-! ## A refused COMMIT (O24) -/

/-- Settles O24: the validation of STAGE, which the command words do not touch. -/
theorem commitRefused : Obligations.CommitRefused := by
  rintro s v f q n r writes idle refused rfl
  have stage := stageWindow_beside (m := s.shadow) (off := 0x100) (ws := [commandWord q 1, n.setWidth 32]) (by simp)
  have refused' : validate (written s 0x100 [commandWord q 1, n.setWidth 32]).shadow = some r := by
    have same : stageWindow (written s 0x100 [commandWord q 1, n.setWidth 32]).shadow = stageWindow s.shadow := funext stage
    refine Eq.trans ?_ ((validate_iff.1 r).2 refused)
    unfold validate windowRefusal layerHolder
    rw [same]
  have action : commandAction f.initiator (1 : Byte).toNat q n (written s 0x100 [commandWord q 1, n.setWidth 32])
      = (refuseCommit f.initiator n r (written s 0x100 [commandWord q 1, n.setWidth 32]), .refused, refusalDetail r) := by
    refine (if_neg idle).trans ?_
    rw [refused']
  exact ⟨congrArg Host.Outcome.next (argument_quiet writes rfl action ⟨rfl, rfl, rfl⟩), stage⟩

/-! ## CANCEL_FILLS (O31) -/

theorem mem_insertItem {i j : PostItem} {l : List PostItem} : i ∈ insertItem j l ↔ i = j ∨ i ∈ l := by
  refine ⟨fun mem => ?_, fun mem => ?_⟩
  · induction l with
    | nil => exact .inl (List.mem_singleton.1 mem)
    | cons k rest ih =>
      unfold insertItem at mem
      split at mem
      · exact List.mem_cons.1 mem
      · split at mem
        · exact .inr mem
        · obtain rfl | mem := List.mem_cons.1 mem
          · exact .inr List.mem_cons_self
          · exact (ih mem).imp id (List.mem_cons_of_mem k)
  · obtain rfl | mem := mem
    · exact mem_insertItem_self i l
    · exact FillResets.mem_insertItem_of_mem mem

theorem mem_flags_flaggedIf {changed : Bool} {i j : PostItem} {p : Poster} :
    i ∈ (flaggedIf changed j p).flags ↔ i ∈ p.flags ∨ (changed = true ∧ i = j) := by
  cases changed with
  | false => simp [flaggedIf]
  | true =>
    refine mem_insertItem.trans ?_
    rw [Or.comm]
    simp

/-- From `s` to `t` fill counts only fall, which flags the image entries, and nothing else changes. -/
structure CountsFall (s t : State) : Prop where
  state : t = { s with fillCount := t.fillCount, poster := { s.poster with flags := t.poster.flags } }
  fall : ∀ w : WindowId, t.fillCount[w] ≤ s.fillCount[w]
  flags : ∀ i, i ∈ t.poster.flags ↔ i ∈ s.poster.flags ∨ ∃ w : WindowId, i = .image w ∧ t.fillCount[w] ≠ s.fillCount[w]

theorem CountsFall.refl (s : State) : CountsFall s s := ⟨rfl, fun _ => Nat.le_refl _, fun i => by simp⟩

theorem CountsFall.trans {s t u : State} (h : CountsFall s t) (k : CountsFall t u) : CountsFall s u := by
  refine ⟨k.state.trans ?_, fun w => Nat.le_trans (k.fall w) (h.fall w), fun i => ?_⟩
  · rw [h.state]
  · rw [k.flags, h.flags, or_assoc, ← exists_or]
    refine or_congr Iff.rfl (exists_congr fun w => ?_)
    have first := h.fall w
    have second := k.fall w
    rw [← and_or_left]
    exact and_congr Iff.rfl (by omega)

theorem lowerCause_falls (e : ResolveEntry) (s : State) : CountsFall s (lowerCause e s) := by
  have count := Fills.lowerCause_count e s
  cases named : e.cause with
  | none =>
    have same : lowerCause e s = s := by unfold lowerCause; rw [named]
    rw [same]
    exact .refl s
  | some v =>
    have same : lowerCause e s = setCount v (s.fillCount[v] - 1) s := by unfold lowerCause; rw [named]
    simp only [named, Option.some.injEq] at count
    rw [same] at count ⊢
    refine ⟨rfl, fun w => ?_, fun i => ?_⟩
    · rw [count]
      split <;> omega
    · refine mem_flags_flaggedIf.trans (or_congr Iff.rfl ⟨fun ⟨changed, image⟩ => ⟨v, image, ?_⟩, fun ⟨w, image, changed⟩ => ?_⟩)
      · rw [count, if_pos rfl]
        exact (bne_iff_ne.1 changed).symm
      · rw [count] at changed
        split at changed
        · next here =>
          subst here
          exact ⟨bne_iff_ne.2 changed.symm, image⟩
        · exact absurd rfl changed

theorem lowerCauses_falls (es : List ResolveEntry) (s : State) : CountsFall s (lowerCauses es s) :=
  foldl_keeps CountsFall.refl CountsFall.trans _ (fun s e => lowerCause_falls e s) es s

/-- Settles O31: every entry of the Exposure Fill List lowers its cause's count, which brings them all to 0. -/
theorem cancelFillsEmptiesLists : Obligations.CancelFillsEmptiesLists := by
  intro s f q writes coherent
  have falls := lowerCauses_falls s.exposure { written s 0x100 [commandWord q 5] with exposure := [], marking := [] }
  have zero : ∀ w : WindowId, (lowerCauses s.exposure
      { written s 0x100 [commandWord q 5] with exposure := [], marking := [] }).fillCount[w] = 0 := by
    intro w
    rw [Fills.lowerCauses_count]
    show s.fillCount[w] - _ = 0
    rw [(coherent.counts w).1]
    exact Nat.sub_self _
  have cleared : clearFills (written s 0x100 [commandWord q 5]) = flag .fills { lowerCauses s.exposure
      { written s 0x100 [commandWord q 5] with exposure := [], marking := [] } with
        channel0 := cancelled (lowerCauses s.exposure
          { written s 0x100 [commandWord q 5] with exposure := [], marking := [] }).channel0
        channel1 := cancelled (lowerCauses s.exposure
          { written s 0x100 [commandWord q 5] with exposure := [], marking := [] }).channel1 } := rfl
  generalize lowerCauses s.exposure { written s 0x100 [commandWord q 5] with exposure := [], marking := [] } = t
    at falls zero cleared
  obtain ⟨state, fall, flags⟩ := falls
  have empty : t.fillCount = Vector.replicate 64 0 := by
    refine Vector.ext fun i small => ?_
    rw [Vector.getElem_replicate]
    exact zero ⟨i, small⟩
  refine ⟨insertItem .fills t.poster.flags, congrArg Host.Outcome.next (command_quiet writes rfl (fun n => ?_) ⟨rfl, rfl, rfl⟩),
    fun i => ?_⟩
  · show (clearFills _, _, _) = _
    rw [cleared, state, empty]
    rfl
  · rw [mem_insertItem, flags]
    show _ ∨ i ∈ s.poster.flags ∨ (∃ w : WindowId, i = .image w ∧ t.fillCount[w] ≠ s.fillCount[w]) ↔ _
    simp only [zero, ne_comm (a := 0)]
    grind

/-! ## A line's definition (O34) -/

/-- The lines once evaluated, nothing has changed for a second evaluation. -/
theorem evaluateIndicators_twice (s : State) : evaluateIndicators (evaluateIndicators s) = evaluateIndicators s := by
  have levels : indicatorLevel (evaluateIndicators s) = indicatorLevel s :=
    funext (Indicators.indicatorLevel_congr (fun _ => rfl) (fun _ _ => rfl))
  have pins : (evaluateIndicators s).indicators = Vector.ofFn (indicatorLevel s) := rfl
  rw [evaluateIndicators, levels, pins]
  simp only [bne_self_eq_false]
  rfl

theorem operator_bits (all invert : Bool) : (wordNat (all.toNat + 2 * invert.toNat)).getLsbD 0 = all
    ∧ (wordNat (all.toNat + 2 * invert.toNat)).getLsbD 1 = invert := by
  cases all <;> cases invert <;> decide

/-- Settles O34: each of the two words evaluates the lines, with both words in the shadow. -/
theorem indicatorDefinitionTaken : Obligations.IndicatorDefinitionTaken := by
  intro s f line mask all invert writes follow
  have small := line.isLt
  have running := running_of_writes writes
  have driven := (Indicators.indicatorsFollow_iff_of_released running).1 follow
  have two : [mask, wordNat (all.toNat + 2 * invert.toNat)].length = 2 := rfl
  have place : Aligned (0x40 + 8 * line.val) [mask, wordNat (all.toNat + 2 * invert.toNat)] :=
    ⟨by omega, by omega, by omega, by simp only [Config.controlBytes]; omega⟩
  have accepted : ∀ w ∈ wordsAt (0x40 + 8 * line.val) [mask, wordNat (all.toNat + 2 * invert.toNat)],
      wordRefusal s f.initiator w = none :=
    accepted_open writes.console fun k less => .inl (by omega)
  have first : shadowWord (written s (0x40 + 8 * line.val) [mask, wordNat (all.toNat + 2 * invert.toNat)]).shadow
      (0x40 + 8 * line.val) = mask := shadowWord_written (k := 0) writes.shadow (by simp)
  have second : shadowWord (written s (0x40 + 8 * line.val) [mask, wordNat (all.toNat + 2 * invert.toNat)]).shadow
      (0x44 + 8 * line.val) = wordNat (all.toNat + 2 * invert.toNat) := by
    rw [show 0x44 + 8 * line.val = 0x40 + 8 * line.val + 4 * 1 by omega]
    exact shadowWord_written (k := 1) writes.shadow (by simp)
  have beside : ∀ x, x + 4 ≤ 0x40 + 8 * line.val ∨ 0x48 + 8 * line.val ≤ x →
      shadowWord (written s (0x40 + 8 * line.val) [mask, wordNat (all.toNat + 2 * invert.toNat)]).shadow x
        = shadowWord s.shadow x :=
    fun x apart => shadowWord_beside (by omega)
  have effects : effectsPhase f.initiator s.shadow (wordsAt (0x40 + 8 * line.val) [mask, wordNat (all.toNat + 2 * invert.toNat)])
      (written s (0x40 + 8 * line.val) [mask, wordNat (all.toNat + 2 * invert.toNat)])
      = evaluateIndicators (written s (0x40 + 8 * line.val) [mask, wordNat (all.toNat + 2 * invert.toNat)]) := by
    show wordEffect _ _ ⟨1, 0x40 + 8 * line.val + 4, wordNat (all.toNat + 2 * invert.toNat)⟩
      (wordEffect _ _ ⟨0, 0x40 + 8 * line.val, mask⟩ _) = _
    rw [wordEffect_indicator _ _ _ _ ⟨by dsimp only; omega, by dsimp only; omega⟩,
      wordEffect_indicator _ _ _ _ ⟨by dsimp only; omega, by dsimp only; omega⟩, evaluateIndicators_twice]
  have arrived := arrive_effects writes place accepted effects rfl rfl rfl
  generalize hv : written s (0x40 + 8 * line.val) [mask, wordNat (all.toNat + 2 * invert.toNat)] = v
    at first second beside arrived ⊢
  refine ⟨Vector.ofFn (indicatorLevel v),
    (flaggedIf (v.indicators != Vector.ofFn (indicatorLevel v)) .indicators v.poster).flags,
    congrArg Host.Outcome.next (arrived.trans ?_), ?_, fun m other => ?_, fun i => ?_⟩
  · subst hv
    rfl
  · have level : (Vector.ofFn (indicatorLevel v))[line] = indicatorLevel v line := Vector.getElem_ofFn small
    have masked : ∀ src : SourceId, indicatorMask v.shadow line src = mask.getLsbD src.val := fun src => by
      rw [indicatorMask, first]
    have operator : indicatorAll v.shadow line = all := by
      rw [indicatorAll, second]
      exact (operator_bits all invert).1
    have inverted : indicatorInvert v.shadow line = invert := by
      rw [indicatorInvert, second]
      exact (operator_bits all invert).2
    have cadence : v.cadence = s.cadence := hv ▸ rfl
    rw [level, Indicators.indicatorLevel_iff, inverted]
    unfold LineHolds
    simp only [masked, operator, cadence]
  · have level : (Vector.ofFn (indicatorLevel v))[m] = indicatorLevel v m := Vector.getElem_ofFn m.isLt
    have apart : m.val ≠ line.val := fun same => other (Fin.ext same)
    have cadence : v.cadence = s.cadence := hv ▸ rfl
    rw [level, driven m]
    unfold indicatorLevel indicatorAll indicatorInvert isStale
    have masks : indicatorMask v.shadow m = indicatorMask s.shadow m := funext fun src => by
      rw [indicatorMask, beside _ (by omega), indicatorMask]
    rw [masks, beside _ (by omega), cadence]
  · have same : v.poster = s.poster ∧ v.indicators = s.indicators := by
      subst hv
      exact ⟨rfl, rfl⟩
    rw [mem_flags_flaggedIf, same.1, same.2, bne_iff_ne, ne_comm, And.comm]

end Sys2Proof.ControlWrites

/-! PROOFS of O18 and O19: a control write with any strobes, some of whose words may be refused. -/

namespace Sys2Proof.ControlWrites

open Sys2Proof Sys2Proof.Machine Sys2Proof.ClaimRequests Sys2Proof.Events

/-! ## Staging writes (O18) -/

theorem foldl_unchanged {α : Type} {g : State → α → State} {l : List α} (unchanged : ∀ x ∈ l, ∀ s, g s x = s) (s : State) :
    l.foldl g s = s := by
  induction l generalizing s with
  | nil => rfl
  | cons x l ih =>
    rw [List.foldl_cons, unchanged x List.mem_cons_self]
    exact ih (fun y mem => unchanged y (List.mem_cons_of_mem _ mem)) s

/-- A console's word inside a staging record it may write is accepted. -/
theorem wordRefusal_staging {s : State} {i : Initiator} {w : WindowId} {x : ControlWord} (console : isConsole s i = true)
    (mine : s.owners[w] = .free ∨ ∃ priority, s.owners[w] = .owned i priority)
    (staging : 0x2000 + 64 * w.val ≤ x.offset ∧ x.offset < 0x2000 + 64 * w.val + 64) : wordRefusal s i x = none := by
  have bound := w.isLt
  have notPosted : isPartPosted x.offset = false := by
    rw [← Bool.not_eq_true, isPartPosted_iff]
    omega
  have openInRun : isSetupOnly x.offset = false := by
    rw [← Bool.not_eq_true, isSetupOnly_iff]
    omega
  have mine' : ownedByOther s i w = false := by
    obtain free | ⟨priority, own⟩ := mine
    · simp [ownedByOther, free]
    · simp [ownedByOther, own]
  simp [wordRefusal, console, notPosted, openInRun, stagingWindow_iff.2 staging, mine']

theorem stagingWhole {s : State} {f : Sender} {w : WindowId} {k : Nat} {ws : List Word} (writes : ConsoleWrites s f)
    (mine : s.owners[w] = .free ∨ ∃ priority, s.owners[w] = .owned f.initiator priority) (some : 0 < ws.length)
    (inside : k + ws.length ≤ 16) : arrive (controlTxn s f (0x2000 + 64 * w.val + 4 * k) (bytesOf ws)) s
      = enterPass (controlTxn s f (0x2000 + 64 * w.val + 4 * k) (bytesOf ws)) (written s (0x2000 + 64 * w.val + 4 * k) ws) := by
  have bound := w.isLt
  have within : ∀ x ∈ wordsAt (0x2000 + 64 * w.val + 4 * k) ws,
      0x2000 + 64 * w.val ≤ x.offset ∧ x.offset < 0x2000 + 64 * w.val + 64 := by
    intro x mem
    obtain ⟨j, small, rfl⟩ := List.mem_map.1 mem
    have := List.mem_range.1 small
    dsimp only
    omega
  refine arrive_effects writes ⟨by omega, some, by omega, by simp only [Config.controlBytes]; omega⟩
    (fun x mem => wordRefusal_staging writes.console mine (within x mem)) ?_ rfl rfl rfl
  refine foldl_unchanged (fun x mem t => ?_) _
  have place := within x mem
  exact wordEffect_staging _ _ x t (by omega)

/-! ## A write with any strobes -/

section Partial

variable {s : State} {t : Txn}

theorem arrive_control (arrives : Arrives s t .controlWrite) : arrive t s = serve (takeControl t s) := by
  rw [arrive_taken arrives.taken, take_control arrives.wellFormed arrives.cls]

/-- The places of the words of a write that it covers. -/
def coveredPlaces (t : Txn) : List Nat := (List.range (t.length / 4)).filter (isCovered t)

/-- The places of the covered words that are accepted. -/
def acceptedPlaces (s : State) (t : Txn) : List Nat :=
  (coveredPlaces t).filter fun k => (wordRefusal s t.initiator (wordAt s t k)).isNone

/-- The places of the covered words that are refused. -/
def refusedPlaces (s : State) (t : Txn) : List Nat :=
  (coveredPlaces t).filter fun k => (wordRefusal s t.initiator (wordAt s t k)).isSome

theorem accepted_places : acceptedWords s t.initiator (coveredWords s.shadow t (controlOffset s t))
    = (acceptedPlaces s t).map (wordAt s t) := by
  rw [coveredWords_eq, acceptedWords, List.filter_map]
  rfl

theorem refused_places : refusedWords s t.initiator (coveredWords s.shadow t (controlOffset s t))
    = (refusedPlaces s t).map (wordAt s t) := by
  rw [coveredWords_eq, refusedWords, List.filter_map]
  rfl

/-- The state with the shadow and the report of a control write, before the effects of its words. -/
def shadowed (s : State) (t : Txn) : State :=
  shadowPhase ((acceptedPlaces s t).map (wordAt s t)) (reportRefused t.initiator ((refusedPlaces s t).map (wordAt s t)) s)

theorem takeControl_places : takeControl t s = concludeControl t ((refusedPlaces s t).map (wordAt s t))
    ((acceptedPlaces s t).map (wordAt s t))
    (effectsPhase t.initiator s.shadow ((acceptedPlaces s t).map (wordAt s t)) (shadowed s t)) := by
  rw [takeControl, takeWords, accepted_places, refused_places]
  rfl

/-- A well-formed write whose strobes are as long as it is covers words inside it. -/
theorem mem_coveredPlaces {k : Nat} (wellFormed : malformedReason t = none) (strobes : t.strobes.length = t.length) :
    k ∈ coveredPlaces t ↔ CoversWord t k := by
  rw [coveredPlaces, List.mem_filter, isCovered_iff, List.mem_range]
  refine and_iff_right_of_imp fun covers => ?_
  have inside := coversWord_lt covers
  have whole : t.length % 4 = 0 := by
    unfold malformedReason at wellFormed
    split at wellFormed
    · cases wellFormed
    · split at wellFormed
      · cases wellFormed
      · omega
  omega

theorem mem_refusedPlaces {k : Nat} : k ∈ refusedPlaces s t ↔ k ∈ coveredPlaces t ∧ ∃ n, WordRefused s t k n := by
  rw [refusedPlaces, List.mem_filter, Option.isSome_iff_exists]
  simp only [wordRefused_iff]

theorem mem_acceptedPlaces {k : Nat} : k ∈ acceptedPlaces s t ↔ k ∈ coveredPlaces t ∧ ∀ n, ¬ WordRefused s t k n := by
  rw [acceptedPlaces, List.mem_filter, Option.isNone_iff_eq_none, not_wordRefused_iff]

/-- The first covered word that is refused comes first among them. -/
theorem refusedPlaces_head {k reason : Nat} (wellFormed : malformedReason t = none) (strobes : t.strobes.length = t.length)
    (covers : CoversWord t k) (refused : WordRefused s t k reason)
    (first : ∀ j, j < k → CoversWord t j → ∀ n, ¬ WordRefused s t j n) : ∃ rest, refusedPlaces s t = k :: rest := by
  have found : (refusedPlaces s t).head? = some k := by
    unfold refusedPlaces coveredPlaces
    rw [List.filter_filter, List.head?_filter, List.find?_range_eq_some]
    have covered := (mem_coveredPlaces wellFormed strobes).2 covers
    obtain ⟨inside, _⟩ := List.mem_filter.1 covered
    refine ⟨?_, inside, fun j before => ?_⟩
    · rw [Bool.and_eq_true]
      exact ⟨Option.isSome_iff_exists.2 ⟨reason, wordRefused_iff.2 refused⟩, isCovered_iff.2 covers⟩
    · rw [Bool.not_eq_true', Bool.and_eq_false_iff]
      by_cases covered : isCovered t j = true
      · refine .inl ?_
        rw [Option.isSome_eq_false_iff, Option.isNone_iff_eq_none]
        exact not_wordRefused_iff.2 (first j before (isCovered_iff.1 covered))
      · exact .inr (by simpa using covered)
  cases places : refusedPlaces s t with
  | nil => simp [places] at found
  | cons j rest =>
    obtain rfl : j = k := by simpa [places] using found
    exact ⟨rest, rfl⟩

/-- One report names the first refused word. -/
theorem reportRefused_first {k reason : Nat} {rest : List Nat} (refused : WordRefused s t k reason)
    (head : refusedPlaces s t = k :: rest) : reportRefused t.initiator ((refusedPlaces s t).map (wordAt s t)) s
      = postEvent (evAccessRefused t.initiator reason (controlOffset s t + 4 * k)) s := by
  rw [head]
  show postEvent (evAccessRefused _ ((wordRefusal s t.initiator (wordAt s t k)).getD 0) (wordAt s t k).offset) s = _
  rw [wordRefused_iff.2 refused]
  rfl

/-! ### The strobes that stay on -/

theorem trimmed_length (refused : List ControlWord) : (trimmed t refused).strobes.length = t.strobes.length :=
  List.length_mapIdx

/-- The strobes that stay on are those of no refused word (R8). -/
theorem trimmed_strobe {i : Nat} (wellFormed : malformedReason t = none) (strobes : t.strobes.length = t.length) :
    (trimmed t ((refusedPlaces s t).map (wordAt s t))).strobes.getD i false = true
      ↔ t.strobes.getD i false = true ∧ ∀ n, ¬ WordRefused s t (i / 4) n := by
  have covers : t.strobes.getD i false = true → CoversWord t (i / 4) := fun on =>
    ⟨i % 4, Nat.mod_lt _ (by decide), by rw [Nat.div_add_mod]; exact on⟩
  have refused : (((refusedPlaces s t).map (wordAt s t)).any fun w => w.index == i / 4) = true
      ↔ i / 4 ∈ refusedPlaces s t := by
    simp only [List.any_map, List.any_eq_true, Function.comp, wordAt, beq_iff_eq, exists_eq_right]
  have strobe : (trimmed t ((refusedPlaces s t).map (wordAt s t))).strobes.getD i false
      = (t.strobes.getD i false
        && !(((refusedPlaces s t).map (wordAt s t)).any fun w => w.index == i / 4)) := by
    unfold trimmed
    simp only [List.getD_eq_getElem?_getD, List.getElem?_mapIdx]
    cases t.strobes[i]? <;> rfl
  rw [strobe, Bool.and_eq_true, Bool.not_eq_true', ← Bool.not_eq_true, refused, mem_refusedPlaces,
    mem_coveredPlaces wellFormed strobes]
  refine and_congr_right fun on => ?_
  simp only [covers on, true_and, not_exists]

/-! ### What the shadow takes -/

theorem mergeWord_wf {m : Shadow} (w : ControlWord) (wf : shadowWf m = true) : shadowWf (mergeWord m w) = true :=
  shadowWriteBytes_wf m w.offset _ wf

theorem wordBytes_wordOf (b0 b1 b2 b3 : Byte) : wordBytes (wordOf b0 b1 b2 b3) = [b0, b1, b2, b3] := by
  have first : byteOf (wordOf b0 b1 b2 b3) 0 = b0 := by
    refine BitVec.eq_of_getLsbD_eq fun i small => ?_
    simp only [wordOf, byteOf, BitVec.getLsbD_append, BitVec.getLsbD_extractLsb']
    simp [small]
  have second : byteOf (wordOf b0 b1 b2 b3) 1 = b1 := by
    refine BitVec.eq_of_getLsbD_eq fun i small => ?_
    simp only [wordOf, byteOf, BitVec.getLsbD_append, BitVec.getLsbD_extractLsb']
    simp [small]
  have third : byteOf (wordOf b0 b1 b2 b3) 2 = b2 := by
    refine BitVec.eq_of_getLsbD_eq fun i small => ?_
    simp only [wordOf, byteOf, BitVec.getLsbD_append, BitVec.getLsbD_extractLsb']
    simp [small, show ¬ 16 + i < 8 by omega, show 16 + i - 8 = 8 + i by omega]
  have fourth : byteOf (wordOf b0 b1 b2 b3) 3 = b3 := by
    refine BitVec.eq_of_getLsbD_eq fun i small => ?_
    simp only [wordOf, byteOf, BitVec.getLsbD_append, BitVec.getLsbD_extractLsb']
    simp [small, show ¬ 24 + i < 8 by omega, show 24 + i - 8 = 16 + i by omega, show ¬ 16 + i < 8 by omega,
      show 16 + i - 8 = 8 + i by omega]
  rw [wordBytes, first, second, third, fourth]

/-- The bytes of a covered word, as a merge leaves them. -/
theorem wordAt_bytes (s : State) (t : Txn) (k : Nat) {j : Nat} (small : j < 4) :
    (wordBytes (wordAt s t k).merged)[j]'small = mergedByte s.shadow t (controlOffset s t) (4 * k + j) := by
  have bytes : wordBytes (wordAt s t k).merged = [mergedByte s.shadow t (controlOffset s t) (4 * k),
      mergedByte s.shadow t (controlOffset s t) (4 * k + 1), mergedByte s.shadow t (controlOffset s t) (4 * k + 2),
      mergedByte s.shadow t (controlOffset s t) (4 * k + 3)] := wordBytes_wordOf _ _ _ _
  simp only [bytes]
  match j, small with
  | 0, _ => rfl
  | 1, _ => rfl
  | 2, _ => rfl
  | 3, _ => rfl

theorem shadowRead_mergeWord {m : Shadow} (wf : shadowWf m = true) (k x : Nat) :
    shadowRead (mergeWord m (wordAt s t k)) x = if controlOffset s t ≤ x ∧ (x - controlOffset s t) / 4 = k
      then mergedByte s.shadow t (controlOffset s t) (x - controlOffset s t) else shadowRead m x := by
  have four : (wordBytes (wordAt s t k).merged).length = 4 := rfl
  have offset : (wordAt s t k).offset = controlOffset s t + 4 * k := rfl
  unfold mergeWord
  split
  · next here =>
    obtain ⟨above, word⟩ := here
    have small : (x - controlOffset s t) % 4 < 4 := Nat.mod_lt _ (by decide)
    have place : x = controlOffset s t + 4 * k + (x - controlOffset s t) % 4 := by omega
    have read := shadowRead_writeBytes m (controlOffset s t + 4 * k) ((x - controlOffset s t) % 4)
      (wordBytes (wordAt s t k).merged) wf small
    rw [← place] at read
    rw [offset, read, wordAt_bytes s t k small]
    congr 1
    omega
  · next beside =>
    refine shadowRead_writeBytes_other m _ x _ ?_
    rw [offset, four]
    omega

/-- What the shadow holds once it has taken the words at these places. -/
theorem shadowRead_mergeWords {m : Shadow} (wf : shadowWf m = true) (places : List Nat) (x : Nat) :
    shadowWf ((places.map (wordAt s t)).foldl mergeWord m) = true
      ∧ shadowRead ((places.map (wordAt s t)).foldl mergeWord m) x
        = if controlOffset s t ≤ x ∧ (x - controlOffset s t) / 4 ∈ places
          then mergedByte s.shadow t (controlOffset s t) (x - controlOffset s t) else shadowRead m x := by
  induction places generalizing m with
  | nil => exact ⟨wf, by simp⟩
  | cons k places ih =>
    obtain ⟨wf', read⟩ := ih (mergeWord_wf (wordAt s t k) wf)
    refine ⟨wf', read.trans ?_⟩
    rw [shadowRead_mergeWord wf]
    simp only [List.mem_cons]
    by_cases later : controlOffset s t ≤ x ∧ (x - controlOffset s t) / 4 ∈ places
    · rw [if_pos later, if_pos ⟨later.1, .inr later.2⟩]
    · rw [if_neg later]
      by_cases here : controlOffset s t ≤ x ∧ (x - controlOffset s t) / 4 = k
      · rw [if_pos here, if_pos ⟨here.1, .inl here.2⟩]
      · rw [if_neg here, if_neg fun both => both.2.elim (fun same => here ⟨both.1, same⟩) (fun mem => later ⟨both.1, mem⟩)]

/-- The shadow takes just the bytes that are passed. -/
theorem shadowRead_accepted (wf : shadowWf s.shadow = true) (wellFormed : malformedReason t = none)
    (strobes : t.strobes.length = t.length) (x : Nat) :
    shadowRead (((acceptedPlaces s t).map (wordAt s t)).foldl mergeWord s.shadow) x
      = if controlOffset s t ≤ x
          ∧ (trimmed t ((refusedPlaces s t).map (wordAt s t))).strobes.getD (x - controlOffset s t) false = true
        then t.data.getD (x - controlOffset s t) 0 else shadowRead s.shadow x := by
  rw [(shadowRead_mergeWords wf (acceptedPlaces s t) x).2]
  have strobe := trimmed_strobe (s := s) (i := x - controlOffset s t) wellFormed strobes
  by_cases on : controlOffset s t ≤ x
      ∧ (trimmed t ((refusedPlaces s t).map (wordAt s t))).strobes.getD (x - controlOffset s t) false = true
  · obtain ⟨above, passed⟩ := on
    obtain ⟨written, accepted⟩ := strobe.1 passed
    have covers : CoversWord t ((x - controlOffset s t) / 4) :=
      ⟨(x - controlOffset s t) % 4, Nat.mod_lt _ (by decide), by rw [Nat.div_add_mod]; exact written⟩
    refine (if_pos ⟨above, mem_acceptedPlaces.2 ⟨(mem_coveredPlaces wellFormed strobes).2 covers, accepted⟩⟩).trans ?_
    rw [if_pos ⟨above, passed⟩]
    exact if_pos written
  · rw [if_neg on]
    split
    · next taken =>
      obtain ⟨above, place⟩ := taken
      have off : ¬ t.strobes.getD (x - controlOffset s t) false = true := fun written =>
        on ⟨above, strobe.2 ⟨written, (mem_acceptedPlaces.1 place).2⟩⟩
      refine (if_neg off).trans ?_
      congr 1
      omega
    · rfl

/-! ### The effects of words that act on the shadow alone -/

theorem sourceWord_iff {off : Nat} {src : SourceId} {r : Nat} :
    sourceWord off = some (src, r) ↔ off = sourceOffset src + r ∧ r < 64 := by
  have bound := src.isLt
  unfold sourceWord
  split
  · simp only [Option.some.injEq, Prod.mk.injEq, Fin.ext_iff, sourceOffset]
    omega
  · simp only [reduceCtorEq, sourceOffset, false_iff]
    omega

theorem wordEffect_shadowOnly {i : Initiator} {before : Shadow} {w : ControlWord} (shadow : ShadowOnly w.offset (field w.merged 0 8))
    (u : State) : wordEffect i before w u = u := by
  obtain ⟨notInterrupt, notIndicator, notCommand, notConsumer, notSource, notRequest⟩ := shadow
  rw [wordEffect, if_neg notInterrupt, if_neg notIndicator, if_neg notCommand, if_neg notConsumer]
  split
  · next src r place =>
    obtain ⟨offset, small⟩ := sourceWord_iff.1 place
    obtain ⟨notEnable, notThreshold⟩ := notSource src
    unfold sourceEffect
    split
    · exact absurd (offset.trans (by rw [sourceOffset]; omega)) notEnable
    · exact absurd (offset.trans (by rw [sourceOffset]; omega)) notThreshold
    · rfl
  · split
    · next v place =>
      rw [notRequest v (requestWindow_iff.1 place)]
      rfl
    · rfl

/-! ### Refused, trimmed or passed -/

theorem wordAt_offset {k : Nat} (off : Nat) (same : controlOffset s t = off) : (wordAt s t k).offset = off + 4 * k := by
  rw [← same]
  rfl

/-- Where every covered word is refused the write is answered FAULT (R8). -/
theorem arrive_allRefused {k reason : Nat} {rest : List Nat} (arrives : Arrives s t .controlWrite)
    (refused : WordRefused s t k reason) (head : refusedPlaces s t = k :: rest) (none : acceptedPlaces s t = []) :
    arrive t s = answer t .fault (postEvent (evAccessRefused t.initiator reason (controlOffset s t + 4 * k)) s) := by
  have concluded : takeControl t s
      = answer t .fault (postEvent (evAccessRefused t.initiator reason (controlOffset s t + 4 * k)) s) := by
    rw [takeControl_places, shadowed, reportRefused_first refused head, none, head]
    rfl
  rw [arrive_control arrives, concluded]
  exact serve_same arrives.settled rfl rfl rfl

/-- Where a word is accepted the write is passed without its refused words. -/
theorem arrive_trimmed (arrives : Arrives s t .controlWrite) (some : acceptedPlaces s t ≠ []) :
    arrive t s = serve (enterPass (trimmed t ((refusedPlaces s t).map (wordAt s t)))
      (effectsPhase t.initiator s.shadow ((acceptedPlaces s t).map (wordAt s t)) (shadowed s t))) := by
  have filled : (((acceptedPlaces s t).map (wordAt s t)).isEmpty && !((refusedPlaces s t).map (wordAt s t)).isEmpty) = false := by
    cases places : acceptedPlaces s t with
    | nil => exact absurd places some
    | cons k rest => rfl
  rw [arrive_control arrives, takeControl_places, concludeControl, filled]
  rfl

theorem effects_shadowOnly {u : State} (shadow : ∀ k ∈ acceptedPlaces s t,
    ShadowOnly (controlOffset s t + 4 * k) (mergedCode s t k)) :
    effectsPhase t.initiator s.shadow ((acceptedPlaces s t).map (wordAt s t)) u = u := by
  refine foldl_unchanged (fun w mem v => ?_) u
  obtain ⟨k, k_mem, rfl⟩ := List.mem_map.1 mem
  have code : field (wordAt s t k).merged 0 8 = mergedCode s t k := merged_code
  exact wordEffect_shadowOnly (code.symm ▸ shadow k k_mem) v

end Partial

/-! ## One word written in part -/

section OneWord

variable {s : State} {f : Sender} {off : Nat} {v : Word} {b0 b1 b2 b3 : Bool} {t : Txn}

theorem arrives_oneWord (settled : Settled s) (taken : canTake s f.initiator = true) (sender : f.initiator ≠ 15)
    (aligned : off % 4 = 0) (region : off < 65536)
    (spelled : t = { controlTxn s f off (bytesOf [v]) with strobes := [b0, b1, b2, b3] }) :
    Arrives s t .controlWrite ∧ controlOffset s t = off := by
  subst spelled
  refine ⟨⟨settled, taken, ?_, classify_controlTxn s f off (bytesOf [v]) region⟩,
    controlOffset_controlTxn s f off (bytesOf [v]) region⟩
  exact malformedReason_controlTxn s f off [v] sender aligned Nat.one_pos (by rw [List.length_singleton]; omega) region

theorem coveredPlaces_oneWord (on : (b0 || b1 || b2 || b3) = true)
    (spelled : t = { controlTxn s f off (bytesOf [v]) with strobes := [b0, b1, b2, b3] }) : coveredPlaces t = [0] := by
  subst spelled
  have covered : isCovered { controlTxn s f off (bytesOf [v]) with strobes := [b0, b1, b2, b3] } 0 = true := on
  have length : (controlTxn s f off (bytesOf [v])).length / 4 = 1 := by
    rw [show (controlTxn s f off (bytesOf [v])).length = 4 from bytesOf_length [v]]
  unfold coveredPlaces
  dsimp only
  rw [length, List.range_one, List.filter_cons, if_pos covered]
  rfl

/-- A word that is refused for a reason, written whole or in part, does nothing but its report (R8, R153). -/
theorem oneWord_refused {reason : Nat} (arrives : Arrives s t .controlWrite ∧ controlOffset s t = off)
    (sender : t.initiator = f.initiator) (places : coveredPlaces t = [0])
    (refused : ∀ code, RefusedFor s f.initiator off code reason) :
    arrive t s = { s with
      ingestOut := s.ingestOut ++ [responseTo t .fault]
      poster := handedOver s.shadow s.wallTime (evAccessRefused f.initiator reason off) s.poster } := by
  obtain ⟨arrives, offset⟩ := arrives
  have word : WordRefused s t 0 reason := by
    rw [WordRefused, sender, show t.address.toNat - controlBase s = off from offset]
    exact refused _
  have found : (wordRefusal s t.initiator (wordAt s t 0)) = some reason := wordRefused_iff.2 word
  have head : refusedPlaces s t = [0] := by
    rw [refusedPlaces, places, List.filter_cons, found]
    rfl
  have none : acceptedPlaces s t = [] := by
    rw [acceptedPlaces, places, List.filter_cons, found]
    rfl
  rw [arrive_allRefused arrives word head none, offset, sender]
  rfl

end OneWord

/-- The reasons of R153 for a word, whatever it holds. -/
theorem refused_reasons {s : State} {f : Sender} {off : Nat} :
    (isConsole s f.initiator = false → ∀ code, RefusedFor s f.initiator off code 1)
    ∧ (isConsole s f.initiator = true →
      (isPartPosted off = true → ∀ code, RefusedFor s f.initiator off code 2)
      ∧ (s.mode = .run → isSetupOnly off = true → ∀ code, RefusedFor s f.initiator off code 3)
      ∧ (∀ (w : WindowId) (o : Initiator) (pr : Bool), 0x2000 + 64 * w.val ≤ off → off < 0x2000 + 64 * w.val + 64 →
          s.owners[w] = .owned o pr → o ≠ f.initiator → ∀ code, RefusedFor s f.initiator off code 4)) :=
  ⟨fun not _ => .notConsole not, fun console => ⟨fun posted _ => .partPosted console (isPartPosted_iff.1 posted),
    fun run setup _ => .setupOnly console run (isSetupOnly_iff.1 setup),
    fun w o pr low high owned other _ => .notOwner w o pr console low high owned other⟩⟩

/-- A request of NONE beside the owner word: the request is taken, the owner word refused (R8, R153). -/
theorem requestBesideOwner {s u : State} {f : Sender} (writes : ConsoleWrites s f) (w : WindowId) (v : Word)
    (left : u = { written s (0x3000 + 8 * w.val) [0] with
      poster := handedOver s.shadow s.wallTime (evAccessRefused f.initiator 2 (0x3004 + 8 * w.val)) s.poster }) :
    arrive (controlTxn s f (0x3000 + 8 * w.val) (bytesOf [0, v])) s = enterPass
      { controlTxn s f (0x3000 + 8 * w.val) (bytesOf [0, v]) with
        strobes := [true, true, true, true, false, false, false, false] } u := by
  have bound := w.isLt
  have two : [(0 : Word), v].length = 2 := rfl
  have region : 0x3000 + 8 * w.val < Config.controlBytes := by simp only [Config.controlBytes]; omega
  have owner : 0x3000 + 8 * w.val + 4 = 0x3004 + 8 * w.val := by omega
  have request : wordRefusal s f.initiator ⟨0, 0x3000 + 8 * w.val, 0⟩ = none :=
    wordRefusal_request writes.console w 0
  have posted : wordRefusal s f.initiator ⟨1, 0x3000 + 8 * w.val + 4, v⟩ = some 2 :=
    wordRefusal_iff.2 (.partPosted writes.console (.inr (.inl ⟨w, owner⟩)))
  have words : wordsAt (0x3000 + 8 * w.val) [0, v]
      = [⟨0, 0x3000 + 8 * w.val, 0⟩, ⟨1, 0x3000 + 8 * w.val + 4, v⟩] := rfl
  have refused : refusedWords s f.initiator [⟨0, 0x3000 + 8 * w.val, 0⟩, ⟨1, 0x3000 + 8 * w.val + 4, v⟩]
      = [⟨1, 0x3000 + 8 * w.val + 4, v⟩] := by
    rw [refusedWords, List.filter_cons, List.filter_cons, request, posted]
    rfl
  have accepted : acceptedWords s f.initiator [⟨0, 0x3000 + 8 * w.val, 0⟩, ⟨1, 0x3000 + 8 * w.val + 4, v⟩]
      = [⟨0, 0x3000 + 8 * w.val, 0⟩] := by
    rw [acceptedWords, List.filter_cons, List.filter_cons, request, posted]
    rfl
  have report : reportRefused f.initiator [⟨1, 0x3000 + 8 * w.val + 4, v⟩] s
      = postEvent (evAccessRefused f.initiator 2 (0x3004 + 8 * w.val)) s := by
    show postEvent (evAccessRefused _ ((wordRefusal s f.initiator _).getD 0) _) s = _
    rw [posted, owner]
    rfl
  have strobes : trimmed (controlTxn s f (0x3000 + 8 * w.val) (bytesOf [0, v])) [⟨1, 0x3000 + 8 * w.val + 4, v⟩]
      = { controlTxn s f (0x3000 + 8 * w.val) (bytesOf [0, v]) with
        strobes := [true, true, true, true, false, false, false, false] } := by
    have length : (bytesOf [0, v]).length = 8 := bytesOf_length [0, v]
    unfold trimmed controlTxn
    rw [length]
    simp [List.replicate_succ, List.mapIdx_cons]
  have effect : ∀ u, effectsPhase f.initiator s.shadow [⟨0, 0x3000 + 8 * w.val, 0⟩] u = u :=
    fun u => wordEffect_request f.initiator s.shadow w 0 u
  have taken : takeControl (controlTxn s f (0x3000 + 8 * w.val) (bytesOf [0, v])) s = enterPass
      { controlTxn s f (0x3000 + 8 * w.val) (bytesOf [0, v]) with
        strobes := [true, true, true, true, false, false, false, false] } u := by
    rw [takeControl, controlOffset_controlTxn s f _ _ region, coveredWords_controlTxn, takeWords,
      show (controlTxn s f (0x3000 + 8 * w.val) (bytesOf [0, v])).initiator = f.initiator from rfl, words, refused, accepted,
      report, effect, concludeControl, strobes, left]
    rfl
  have settled : Settled u := by
    rw [left]
    exact (readyInitiators_congr rfl rfl rfl).trans writes.settled
  rw [arrive_taken writes.taken, take_controlTxn s f _ [0, v] (isConsole_ne s _ writes.console) (by omega) (by omega)
    (by omega) region, taken]
  exact serve_of_settled (settled_enterPass settled _)

/-- Settles O19: by the places of the refused and the accepted words of the write. -/
theorem controlWriteRefusedOrTrimmed : Obligations.ControlWriteRefusedOrTrimmed := by
  have partly : ∀ (s : State) (f : Sender) (off : Nat) (v : Word) (b0 b1 b2 b3 : Bool) (t : Txn) (refused : Nat → State),
      Settled s → canTake s f.initiator = true → f.initiator ≠ 15 → off % 4 = 0 → off < 65536 →
      (b0 || b1 || b2 || b3) = true → t = { controlTxn s f off (bytesOf [v]) with strobes := [b0, b1, b2, b3] } →
      refused = (fun reason => { s with
        ingestOut := s.ingestOut ++ [responseTo t .fault]
        poster := handedOver s.shadow s.wallTime (evAccessRefused f.initiator reason off) s.poster }) →
      (isConsole s f.initiator = false → exec (.controlWrite t) s = .next (refused 1))
      ∧ (isConsole s f.initiator = true →
        (isPartPosted off = true → exec (.controlWrite t) s = .next (refused 2))
        ∧ (s.mode = .run → isSetupOnly off = true → exec (.controlWrite t) s = .next (refused 3))
        ∧ (∀ (w : WindowId) (o : Initiator) (pr : Bool), 0x2000 + 64 * w.val ≤ off → off < 0x2000 + 64 * w.val + 64 →
            s.owners[w] = .owned o pr → o ≠ f.initiator → exec (.controlWrite t) s = .next (refused 4))) := by
    rintro s f off v b0 b1 b2 b3 t refused settled taken sender aligned region on spelled rfl
    have arrives := arrives_oneWord settled taken sender aligned region spelled
    have places := coveredPlaces_oneWord on spelled
    have writer : t.initiator = f.initiator := by rw [spelled]; rfl
    have ended : ∀ reason, (∀ code, RefusedFor s f.initiator off code reason) → exec (.controlWrite t) s = .next { s with
        ingestOut := s.ingestOut ++ [responseTo t .fault]
        poster := handedOver s.shadow s.wallTime (evAccessRefused f.initiator reason off) s.poster } :=
      fun reason refused => congrArg Host.Outcome.next (oneWord_refused arrives writer places refused)
    obtain ⟨notConsole, console⟩ := refused_reasons (s := s) (f := f) (off := off)
    refine ⟨fun not => ended 1 (notConsole not), fun is => ?_⟩
    obtain ⟨posted, setup, owner⟩ := console is
    exact ⟨fun is => ended 2 (posted is), fun run is => ended 3 (setup run is),
      fun w o pr low high owned other => ended 4 (owner w o pr low high owned other)⟩
  refine ⟨fun s f off v t refused settled taken sender aligned region spelled =>
    partly s f off v true true true true t refused settled taken sender aligned region rfl spelled, partly,
    fun s f w v t writes spelled => ?_, fun s t off k reason p arrives offset data strobes covers refused first report => ?_⟩
  · subst spelled
    exact congrArg Host.Outcome.next (requestBesideOwner writes w v rfl)
  · subst offset report
    obtain ⟨rest, head⟩ := refusedPlaces_head arrives.wellFormed strobes covers refused first
    refine ⟨fun all => ?_, fun j covered accepted => ?_⟩
    · have none : acceptedPlaces s t = [] := by
        refine List.eq_nil_iff_forall_not_mem.2 fun j mem => ?_
        obtain ⟨covered, accepted⟩ := mem_acceptedPlaces.1 mem
        obtain ⟨n, refused⟩ := all j ((mem_coveredPlaces arrives.wellFormed strobes).1 covered)
        exact accepted n refused
      exact congrArg Host.Outcome.next (arrive_allRefused arrives refused head none)
    · have mem : j ∈ acceptedPlaces s t :=
        mem_acceptedPlaces.2 ⟨(mem_coveredPlaces arrives.wellFormed strobes).2 covered, accepted⟩
      have trimmed_ := arrive_trimmed arrives (List.ne_nil_of_mem mem)
      refine ⟨_, _, congrArg Host.Outcome.next trimmed_, (trimmed_length _).trans strobes,
        fun i => trimmed_strobe arrives.wellFormed strobes, fun wf shadow => ?_⟩
      have effects := effects_shadowOnly (s := s) (t := t) (u := shadowed s t) fun k mem => by
        obtain ⟨covered, accepted⟩ := mem_acceptedPlaces.1 mem
        exact shadow k ((mem_coveredPlaces arrives.wellFormed strobes).1 covered) accepted
      have state : shadowed s t = { s with
          shadow := ((acceptedPlaces s t).map (wordAt s t)).foldl mergeWord s.shadow
          poster := handedOver s.shadow s.wallTime
            (evAccessRefused t.initiator reason (t.address.toNat - controlBase s + 4 * k)) s.poster } := by
        rw [shadowed, reportRefused_first refused head]
        rfl
      rw [effects, state] at trimmed_ ⊢
      refine ⟨congrArg Host.Outcome.next (trimmed_.trans (serve_of_settled (settled_enterPass ?_ _))), _, rfl,
        (shadowRead_mergeWords wf (acceptedPlaces s t) 0).1, shadowRead_accepted wf arrives.wellFormed strobes⟩
      exact (readyInitiators_congr rfl rfl rfl).trans arrives.settled

/-- A write whose strobes are all off covers no word, and is passed (R152). -/
theorem arrive_uncovered {s : State} {t : Txn} (arrives : Arrives s t .controlWrite) (off : ∀ b ∈ t.strobes, b = false) :
    arrive t s = enterPass t s := by
  have strobe : ∀ i, strobeOn t i = false := by
    intro i
    rw [strobeOn, List.getD_eq_getElem?_getD]
    cases at_i : t.strobes[i]? with
    | none => rfl
    | some b => exact off b (List.mem_of_getElem? at_i)
  have none : coveredWords s.shadow t (controlOffset s t) = [] := by
    rw [coveredWords_eq, List.filter_eq_nil_iff.2 fun k _ => by simp [isCovered, strobe]]
    rfl
  have taken : takeControl t s = enterPass t s := by
    rw [takeControl, none]
    show enterPass (trimmed t []) s = _
    rw [trimmed_nil]
  rw [arrive_control arrives, taken]
  exact serve_of_settled (settled_enterPass arrives.settled t)

/-- Settles O18: whole words, one word in part, and no word. -/
theorem stagingWriteShadowed : Obligations.StagingWriteShadowed := by
  refine ⟨fun s f w k ws t writes mine some inside spelled => ?_,
    fun s f w k v b0 b1 b2 b3 off t kept writes mine small place on spelled merged => ?_,
    fun s t arrives off => congrArg Host.Outcome.next (arrive_uncovered arrives off)⟩
  · subst spelled
    exact congrArg Host.Outcome.next (stagingWhole writes mine some inside)
  · have bound := w.isLt
    obtain ⟨arrives, offset⟩ := arrives_oneWord (s := s) (off := off) writes.settled writes.taken
      (isConsole_ne s _ writes.console) (by omega) (by omega) spelled
    have places := coveredPlaces_oneWord on spelled
    have writer : t.initiator = f.initiator := by rw [spelled]; rfl
    have at_ : (wordAt s t 0).offset = off := (wordAt_offset off offset).trans (Nat.add_zero off)
    have free : wordRefusal s t.initiator (wordAt s t 0) = none := by
      rw [writer]
      exact wordRefusal_staging writes.console mine (by rw [at_]; omega)
    have accepted : acceptedPlaces s t = [0] := by
      rw [acceptedPlaces, places, List.filter_cons, free]
      rfl
    have refused : refusedPlaces s t = [] := by
      rw [refusedPlaces, places, List.filter_cons, free]
      rfl
    have word : (wordAt s t 0).merged = wordOf (kept b0 0) (kept b1 1) (kept b2 2) (kept b3 3) := by
      show wordOf (mergedByte s.shadow t (controlOffset s t) 0) (mergedByte s.shadow t (controlOffset s t) 1)
        (mergedByte s.shadow t (controlOffset s t) 2) (mergedByte s.shadow t (controlOffset s t) 3) = _
      rw [offset, merged, spelled]
      rfl
    have state : shadowed s t = written s off [wordOf (kept b0 0) (kept b1 1) (kept b2 2) (kept b3 3)] := by
      have bytes : bytesOf [(wordAt s t 0).merged] = wordBytes (wordAt s t 0).merged := List.append_nil _
      rw [shadowed, accepted, refused, written, ← word, bytes, ← at_]
      rfl
    have effect : ∀ u, effectsPhase t.initiator s.shadow ([0].map (wordAt s t)) u = u := by
      refine foldl_unchanged fun x mem u => ?_
      obtain rfl : x = wordAt s t 0 := List.mem_singleton.1 mem
      exact wordEffect_staging t.initiator s.shadow _ u (by rw [at_]; omega)
    have trimmed_ := arrive_trimmed arrives (by rw [accepted]; exact List.cons_ne_nil 0 [])
    rw [accepted, refused, effect, state, List.map_nil, trimmed_nil] at trimmed_
    refine congrArg Host.Outcome.next (trimmed_.trans (serve_of_settled (settled_enterPass ?_ t)))
    exact (readyInitiators_congr rfl rfl rfl).trans writes.settled

end Sys2Proof.ControlWrites
/-! The evaluation of failover (R144 to R146): what is found due for a window, the records, gates and events it leaves, and
the same of all windows. -/

namespace Sys2Proof.Failover

open Sys2Proof Sys2Proof.Machine Sys2Proof.Events

/-! ## What is due -/

/-- What an evaluation finds due for a record. -/
def due (only : Option SourceId) (s : State) (r : LayoutRecord) : Option Move :=
  if examined only r then judge s r else none

/-- What is due for a window's record of ACTIVE. -/
def dueActive (only : Option SourceId) (inActive : Bool) (s : State) (w : WindowId) : Option Move :=
  if inActive then due only s s.active.records[w] else none

/-- What is due for a window's record of NEXT. -/
def dueNext (only : Option SourceId) (s : State) (w : WindowId) : Option Move := (nextRecordOf s w).bind (due only s)

/-- The gate of a window that switches is armed, whichever copy it switches in. -/
def switchesAt (only : Option SourceId) (inActive : Bool) (s : State) (w : WindowId) : Bool :=
  dueActive only inActive s w == some .failover || dueActive only inActive s w == some .failback
    || dueNext only s w == some .failover || dueNext only s w == some .failback

theorem judge_congr {s t : State} (cadence : t.cadence = s.cadence) (r : LayoutRecord) : judge t r = judge s r := by
  unfold judge failoverDue failbackDue cadenceOf
  rw [cadence]

theorem due_congr {s t : State} (only : Option SourceId) (cadence : t.cadence = s.cadence) : due only t = due only s :=
  funext fun r => by rw [due, due, judge_congr cadence]

/-! ## The events of one window -/

/-- The kind of the event that reports a move. -/
def kindOf : Move → Nat
  | .failover => 9
  | .advised => 10
  | .failback => 11

/-- The event that reports a move of a window in these copies, with the sources of this record. -/
def moveEvent (w : WindowId) (m : Move) (copies : Nat) (r : LayoutRecord) : Event :=
  match m with
  | .failover => evFailover w copies (moveSources r m).1 (moveSources r m).2
  | .failback => evFailback w copies (moveSources r m).1 (moveSources r m).2 1 thePart
  | .advised => evFailoverAdvised w copies (moveSources r m).1 (moveSources r m).2

theorem moveEvent_kind (w : WindowId) (m : Move) (copies : Nat) (r : LayoutRecord) :
    (moveEvent w m copies r).kind = kindOf m := by cases m <;> rfl

theorem moveEvent_subject (w : WindowId) (m : Move) (copies : Nat) (r : LayoutRecord) :
    (moveEvent w m copies r).subject = w.val := by cases m <;> rfl

theorem moveEvent_detail (w : WindowId) (m : Move) (copies : Nat) (r : LayoutRecord) :
    (moveEvent w m copies r).detail = copies := by cases m <;> rfl

theorem kindOf_injective {m n : Move} (h : kindOf m = kindOf n) : m = n := by
  cases m <;> cases n <;> simp_all [kindOf]

/-- From `s` to `t` these events are handed over, and nothing else changes but the flags that they set. -/
structure Posts (es : List Event) (s t : State) : Prop where
  only : ∃ p n, t = { s with poster := p, choices := n }
  hands : Hands es s t
  flags : s.poster.flags ⊆ t.poster.flags

theorem Posts.refl (s : State) : Posts [] s s := ⟨⟨_, _, rfl⟩, .refl s, List.Subset.refl _⟩

theorem Posts.trans {s t u : State} {es fs : List Event} (h : Posts es s t) (k : Posts fs t u) : Posts (es ++ fs) s u := by
  obtain ⟨⟨p, n, first⟩, hands, flags⟩ := h
  obtain ⟨⟨q, m, second⟩, hands', flags'⟩ := k
  refine ⟨⟨q, m, ?_⟩, hands.trans hands', List.Subset.trans flags flags'⟩
  rw [second, first]

theorem posts_postEvent (e : Event) (s : State) : Posts [e] s (postEvent e s) :=
  ⟨⟨_, _, rfl⟩, hands_postEvent e s, (Indicators.postEvent_kept e s).flags⟩

theorem posts_choices (n : Nat) (s : State) : Posts [] s { s with choices := n } :=
  ⟨⟨_, _, rfl⟩, .of_stays rfl rfl rfl rfl, List.Subset.refl _⟩

/-- The sources an event names are those of one of the copies it concerns (log entry 6). -/
theorem reportedSources_among (a n : Option (Nat × Nat)) (s : State) (some : a.isSome ∨ n.isSome) :
    (a = .some (reportedSources a n s).1 ∨ n = .some (reportedSources a n s).1)
      ∧ Posts [] s (reportedSources a n s).2 := by
  cases a with
  | none =>
    cases n with
    | none => simp at some
    | some n => exact ⟨.inr rfl, .refl s⟩
  | some a =>
    cases n with
    | none => exact ⟨.inl rfl, .refl s⟩
    | some n =>
      unfold reportedSources
      dsimp only
      split
      · exact ⟨.inl rfl, .refl s⟩
      · refine ⟨?_, posts_choices _ s⟩
        dsimp only
        split
        · exact .inl rfl
        · exact .inr rfl

/-- The sources the report of a move names for a window: those of its record, where this move is due for it. -/
def sourcesFor (found : Option Move) (m : Move) (r : Option LayoutRecord) : Option (Nat × Nat) :=
  r.bind fun r => if found = some m then some (moveSources r m) else none

theorem sourcesFor_some {found : Option Move} {m : Move} {r : Option LayoutRecord} {q : Nat × Nat}
    (h : sourcesFor found m r = some q) : ∃ x, r = some x ∧ found = some m ∧ q = moveSources x m := by
  obtain ⟨x, rfl, is⟩ := Option.bind_eq_some_iff.1 h
  split at is
  · next yes => exact ⟨x, rfl, yes, (Option.some.inj is).symm⟩
  · cases is

theorem reportMove_posts {w : WindowId} {m : Move} {a n : Option Move} {ra : LayoutRecord} {rn : Option LayoutRecord}
    (next : n = some m → rn.isSome) (due : a = some m ∨ n = some m) (s : State) :
    ∃ r, ((a = some m ∧ r = ra) ∨ (n = some m ∧ rn = some r))
      ∧ Posts [moveEvent w m (copiesCode (a == some m) (n == some m)) r] s
        (reportMove w m (sourcesFor a m (some ra)) (sourcesFor n m rn) s) := by
  have active : (sourcesFor a m (some ra)).isSome = (a == some m) := by
    by_cases is : a = some m <;> simp [sourcesFor, is]
  have other : (sourcesFor n m rn).isSome = (n == some m) := by
    by_cases is : n = some m
    · obtain ⟨r, rfl⟩ := Option.isSome_iff_exists.1 (next is)
      simp [sourcesFor, is]
    · cases rn <;> simp [sourcesFor, is]
  have some_one : (sourcesFor a m (some ra)).isSome ∨ (sourcesFor n m rn).isSome := by
    simpa [active, other] using due
  obtain ⟨among, sources⟩ := reportedSources_among _ _ s some_one
  have reports : ((sourcesFor a m (some ra)).isNone && (sourcesFor n m rn).isNone) = false := by
    rw [← Option.not_isSome, ← Option.not_isSome]
    rcases some_one with yes | yes <;> simp [yes]
  have posted : ∀ r, (reportedSources (sourcesFor a m (some ra)) (sourcesFor n m rn) s).1 = moveSources r m →
      Posts [moveEvent w m (copiesCode (a == some m) (n == some m)) r] s
        (reportMove w m (sourcesFor a m (some ra)) (sourcesFor n m rn) s) := by
    intro r same
    unfold reportMove
    rw [if_neg (by rw [reports]; exact Bool.false_ne_true), active, other]
    have posts := sources.trans (posts_postEvent (moveEvent w m (copiesCode (a == some m) (n == some m)) r) _)
    dsimp only
    rw [same]
    cases m <;> exact posts
  rcases among with is | is
  · obtain ⟨x, here, found, sources⟩ := sourcesFor_some is
    cases here
    exact ⟨ra, .inl ⟨found, rfl⟩, posted ra sources⟩
  · obtain ⟨x, rfl, found, sources⟩ := sourcesFor_some is
    exact ⟨x, .inr ⟨found, rfl⟩, posted x sources⟩

/-- The events of one window: one for each kind of move that is due, with the copies it is due in, and no others. -/
structure WindowTold (w : WindowId) (a n : Option Move) (ra : LayoutRecord) (rn : Option LayoutRecord)
    (es : List Event) : Prop where
  few : es.length ≤ 2
  kinds : ∀ e ∈ es, ∃ m, e.kind = kindOf m
  quiet : ∀ m, a ≠ some m → n ≠ some m → es.filter (fun e => e.kind == kindOf m) = []
  one : ∀ m, a = some m ∨ n = some m → ∃ r, ((a = some m ∧ r = ra) ∨ (n = some m ∧ rn = some r))
    ∧ es.filter (fun e => e.kind == kindOf m) = [moveEvent w m (copiesCode (a == some m) (n == some m)) r]

theorem filter_moveEvent (w : WindowId) (m k : Move) (copies : Nat) (r : LayoutRecord) :
    [moveEvent w m copies r].filter (fun e => e.kind == kindOf k) = if m = k then [moveEvent w m copies r] else [] := by
  by_cases same : m = k
  · simp [same, moveEvent_kind]
  · have other : kindOf m ≠ kindOf k := fun h => same (kindOf_injective h)
    simp [same, other, moveEvent_kind]

theorem windowTold_single {w : WindowId} {m : Move} {a n : Option Move} {ra : LayoutRecord} {rn : Option LayoutRecord}
    {r : LayoutRecord} (which : (a = some m ∧ r = ra) ∨ (n = some m ∧ rn = some r))
    (same : ∀ k, a = some k ∨ n = some k → k = m) :
    WindowTold w a n ra rn [moveEvent w m (copiesCode (a == some m) (n == some m)) r] := by
  refine ⟨by simp, fun e mem => ⟨m, ?_⟩, fun k notA notN => ?_, fun k due => ?_⟩
  · rw [List.mem_singleton.1 mem, moveEvent_kind]
  · rw [filter_moveEvent, if_neg]
    rintro rfl
    rcases which with ⟨is, _⟩ | ⟨is, _⟩
    · exact notA is
    · exact notN is
  · obtain rfl := same k due
    exact ⟨r, which, by rw [filter_moveEvent, if_pos rfl]⟩

theorem copies_active {m k : Move} (differ : k ≠ m) : copiesCode (some m == some m) (some k == some m) = 1 := by
  have not : (k == m) = false := beq_false_of_ne differ
  simp [copiesCode, not]

theorem copies_next {m k : Move} (differ : m ≠ k) : copiesCode (some m == some k) (some k == some k) = 2 := by
  have not : (m == k) = false := beq_false_of_ne differ
  simp [copiesCode, not]

theorem windowTold_pair {w : WindowId} {m k : Move} {ra rn : LayoutRecord} {es : List Event} (differ : m ≠ k)
    (which : es = [moveEvent w m 1 ra, moveEvent w k 2 rn] ∨ es = [moveEvent w k 2 rn, moveEvent w m 1 ra]) :
    WindowTold w (some m) (some k) ra (some rn) es := by
  have filtered : ∀ j, es.filter (fun e => e.kind == kindOf j)
      = if m = j then [moveEvent w m 1 ra] else if k = j then [moveEvent w k 2 rn] else [] := by
    intro j
    have first := filter_moveEvent w m j 1 ra
    have second := filter_moveEvent w k j 2 rn
    have split : es.filter (fun e => e.kind == kindOf j)
        = [moveEvent w m 1 ra].filter (fun e => e.kind == kindOf j) ++ [moveEvent w k 2 rn].filter (fun e => e.kind == kindOf j)
        ∨ es.filter (fun e => e.kind == kindOf j)
        = [moveEvent w k 2 rn].filter (fun e => e.kind == kindOf j) ++ [moveEvent w m 1 ra].filter (fun e => e.kind == kindOf j) := by
      rcases which with rfl | rfl
      · exact .inl (by rw [← List.filter_append]; rfl)
      · exact .inr (by rw [← List.filter_append]; rfl)
    rw [first, second] at split
    by_cases here : m = j
    · subst here
      simpa [Ne.symm differ] using split
    · by_cases there : k = j <;> simpa [here, there] using split
  refine ⟨by rcases which with rfl | rfl <;> simp, fun e mem => ?_, fun j notM notK => ?_, fun j due => ?_⟩
  · have among : e = moveEvent w m 1 ra ∨ e = moveEvent w k 2 rn := by
      rcases which with rfl | rfl
      · simpa using mem
      · exact Or.comm.1 (by simpa using mem)
    rcases among with rfl | rfl
    · exact ⟨m, moveEvent_kind ..⟩
    · exact ⟨k, moveEvent_kind ..⟩
  · rw [filtered, if_neg (fun h => notM (congrArg some h)), if_neg (fun h => notK (congrArg some h))]
  · by_cases here : m = j
    · subst here
      refine ⟨ra, .inl ⟨rfl, rfl⟩, ?_⟩
      rw [filtered, if_pos rfl, copies_active (Ne.symm differ)]
    · have is : k = j := by simpa [here] using due
      subst is
      refine ⟨rn, .inr ⟨rfl, rfl⟩, ?_⟩
      rw [filtered, if_neg here, if_pos rfl, copies_next differ]

theorem windowTold_nil {w : WindowId} {ra : LayoutRecord} {rn : Option LayoutRecord} : WindowTold w none none ra rn [] :=
  ⟨Nat.zero_le 2, fun _ mem => absurd mem List.not_mem_nil, fun _ _ _ => rfl, fun _ due => by simp at due⟩

/-- The reports of a window hand over its events. -/
theorem reportMoves_told {w : WindowId} {a n : Option Move} {ra : LayoutRecord} {rn : Option LayoutRecord}
    (next : ∀ m, n = some m → rn.isSome) (s : State) :
    ∃ es, WindowTold w a n ra rn es ∧ Posts es s
      (reportMoves (fun m s => reportMove w m (sourcesFor a m (some ra)) (sourcesFor n m rn) s) a n s) := by
  have report := fun m => reportMove_posts (w := w) (m := m) (a := a) (n := n) (ra := ra) (rn := rn) (next m)
  have single : ∀ m, a = some m ∨ n = some m → (∀ k, a = some k ∨ n = some k → k = m) →
      ∃ es, WindowTold w a n ra rn es
        ∧ Posts es s (reportMove w m (sourcesFor a m (some ra)) (sourcesFor n m rn) s) := by
    intro m due same
    obtain ⟨r, which, posts⟩ := report m due s
    exact ⟨_, windowTold_single which same, posts⟩
  unfold reportMoves
  cases a with
  | none =>
    cases n with
    | none => exact ⟨[], windowTold_nil, .refl s⟩
    | some n => exact single n (.inr rfl) (by simp [eq_comm])
  | some a =>
    cases n with
    | none => exact single a (.inl rfl) (by simp [eq_comm])
    | some n =>
      dsimp only
      split
      · next same =>
        subst same
        exact single a (.inl rfl) (by simp [eq_comm])
      · next differ =>
        obtain ⟨r, rfl⟩ := Option.isSome_iff_exists.1 (next n rfl)
        have first : ∀ s, Posts [moveEvent w a 1 ra] s
            (reportMove w a (sourcesFor (some a) a (some ra)) (sourcesFor (some n) a (some r)) s) := by
          intro s
          obtain ⟨x, which, posts⟩ := report a (.inl rfl) s
          have is : x = ra := by simpa [Ne.symm differ] using which
          subst is
          rwa [copies_active (Ne.symm differ)] at posts
        have second : ∀ s, Posts [moveEvent w n 2 r] s
            (reportMove w n (sourcesFor (some a) n (some ra)) (sourcesFor (some n) n (some r)) s) := by
          intro s
          obtain ⟨x, which, posts⟩ := report n (.inr rfl) s
          have is : r = x := by simpa [differ] using which
          subst is
          rwa [copies_next differ] at posts
        unfold inEitherOrder
        dsimp only
        split
        · exact ⟨_, windowTold_pair differ (.inl rfl), ((posts_choices _ s).trans (first _)).trans (second _)⟩
        · exact ⟨_, windowTold_pair differ (.inr rfl), ((posts_choices _ s).trans (second _)).trans (first _)⟩

/-! ## The evaluation of windows -/

/-- From `s` to `u` the windows of a list have been evaluated. -/
structure EvaluatedOn (only : Option SourceId) (inActive : Bool) (ws : List WindowId) (s u : State) : Prop where
  rest : ∃ ra rn g p n, u = { s with
    active := { s.active with records := ra }, next := s.next.map fun l => { l with records := rn }, gates := g
    poster := p, choices := n }
  active : ∀ w : WindowId, u.active.records[w]
    = if w ∈ ws then moved s.active.records[w] (dueActive only inActive s w) else s.active.records[w]
  next : ∀ w : WindowId, nextRecordOf u w
    = (nextRecordOf s w).map fun r => if w ∈ ws then moved r (due only s r) else r
  gates : ∀ w : WindowId, u.gates[w] = if w ∈ ws ∧ switchesAt only inActive s w = true then .armed else s.gates[w]
  flagged : ∀ w : WindowId, u.active.records[w].effective ≠ s.active.records[w].effective → .image w ∈ u.poster.flags
  flags : s.poster.flags ⊆ u.poster.flags
  events : ∃ es : WindowId → List Event, Hands (ws.flatMap es) s u ∧ ∀ w ∈ ws,
    WindowTold w (dueActive only inActive s w) (dueNext only s w) s.active.records[w] (nextRecordOf s w) (es w)

theorem moved_none (r : LayoutRecord) : moved r none = r := rfl

theorem put_get {α : Type} {n : Nat} (v : Vector α n) (i j : Fin n) (x : α) :
    (put v i x)[j] = if i = j then x else v[j] := by
  split
  · next same => rw [same, put_self]
  · next other => exact put_of_ne v i j x other

/-- Replacing a window's record of ACTIVE, or keeping it. -/
theorem putActive_eq (w : WindowId) (ok : Bool) (f : LayoutRecord → LayoutRecord) (s : State) :
    ∃ p, putActive w ((if ok then some s.active.records[w] else none).map f) s = { s with
        active := { s.active with
          records := put s.active.records w (if ok then f s.active.records[w] else s.active.records[w]) }
        poster := p }
      ∧ s.poster.flags ⊆ p.flags ∧ p.events = s.poster.events ∧ p.allocation = s.poster.allocation
      ∧ (ok = true → (f s.active.records[w]).effective ≠ s.active.records[w].effective → .image w ∈ p.flags) := by
  cases ok with
  | false =>
    refine ⟨s.poster, ?_, List.Subset.refl _, rfl, rfl, fun h => by cases h⟩
    show s = _
    rw [if_neg Bool.false_ne_true, Traffic.put_same]
  | true =>
    refine ⟨_, rfl, Indicators.flags_flaggedIf _ _ _, rfl, rfl, fun _ differ => mem_flaggedIf _ _ ?_⟩
    rw [bne_iff_ne.2 (Ne.symm differ), Bool.or_true]

/-- Replacing a window's record of NEXT, where it exists and is chosen. -/
theorem putNext_eq (w : WindowId) (choose : LayoutRecord → Bool) (f : LayoutRecord → LayoutRecord) (s : State) :
    putNext w (((nextRecordOf s w).filter choose).map f) s = { s with
      next := s.next.map fun l => { l with
        records := put l.records w (if choose l.records[w] then f l.records[w] else l.records[w]) } } := by
  unfold nextRecordOf
  cases next : s.next with
  | none => exact congrArg (fun n => { s with next := n }) next
  | some l =>
    show putNext w ((Option.filter choose (some l.records[w])).map f) s = _
    rw [Option.filter_some]
    split
    · next chosen =>
      show setNextRecord w (f l.records[w]) s = _
      rw [setNextRecord, next, Option.map_some, if_pos chosen]
    · next not =>
      rw [Option.map_some, if_neg not, Traffic.put_same, ← next]
      rfl

/-- Arming a window's gate where it switches. -/
theorem armGate_eq (w : WindowId) (yes : Bool) (s : State) :
    ∃ p, (if yes then armGate w s else s)
        = { s with gates := if yes then put s.gates w .armed else s.gates, poster := p }
      ∧ s.poster.flags ⊆ p.flags ∧ p.events = s.poster.events ∧ p.allocation = s.poster.allocation := by
  cases yes with
  | false => exact ⟨s.poster, rfl, List.Subset.refl _, rfl, rfl⟩
  | true => exact ⟨_, rfl, Indicators.flags_flaggedIf _ _ _, rfl, rfl⟩

theorem bind_judge_active (only : Option SourceId) (inActive : Bool) (w : WindowId) (s : State) :
    (if inActive && examined only s.active.records[w] then some s.active.records[w] else none).bind (judge s)
      = dueActive only inActive s w := by
  unfold dueActive due
  cases inActive with
  | false => rfl
  | true => cases examined only s.active.records[w] <;> rfl

theorem bind_judge_next (only : Option SourceId) (w : WindowId) (s : State) :
    ((nextRecordOf s w).filter (examined only)).bind (judge s) = dueNext only s w := by
  unfold dueNext due
  cases nextRecordOf s w with
  | none => rfl
  | some r =>
    rw [Option.filter_some, Option.bind_some]
    cases examined only r <;> rfl

theorem sourcesIf_active (only : Option SourceId) (inActive : Bool) (w : WindowId) (s : State) (m : Move) :
    sourcesIf (if inActive && examined only s.active.records[w] then some s.active.records[w] else none)
        (dueActive only inActive s w) m
      = sourcesFor (dueActive only inActive s w) m (some s.active.records[w]) := by
  unfold dueActive due
  cases inActive with
  | false => rfl
  | true => cases examined only s.active.records[w] <;> rfl

theorem sourcesIf_next (only : Option SourceId) (w : WindowId) (s : State) (m : Move) :
    sourcesIf ((nextRecordOf s w).filter (examined only)) (dueNext only s w) m
      = sourcesFor (dueNext only s w) m (nextRecordOf s w) := by
  unfold dueNext due
  cases nextRecordOf s w with
  | none => rfl
  | some r =>
    rw [Option.filter_some, Option.bind_some]
    cases examined only r <;> rfl

/-- The state in which an evaluated window's records are replaced and its gate is armed where it switches. -/
def windowMoved (only : Option SourceId) (inActive : Bool) (w : WindowId) (s : State) : State :=
  let s1 := putNext w (((nextRecordOf s w).filter (examined only)).map fun r => moved r (dueNext only s w))
    (putActive w ((if inActive && examined only s.active.records[w] then some s.active.records[w] else none).map
      fun r => moved r (dueActive only inActive s w)) s)
  if switchesAt only inActive s w then armGate w s1 else s1

theorem evaluateWindow_eq (only : Option SourceId) (inActive : Bool) (w : WindowId) (s : State) :
    evaluateWindow only inActive w s = reportMoves (fun m t => reportMove w m
        (sourcesFor (dueActive only inActive s w) m (some s.active.records[w]))
        (sourcesFor (dueNext only s w) m (nextRecordOf s w)) t)
      (dueActive only inActive s w) (dueNext only s w) (windowMoved only inActive w s) := by
  unfold evaluateWindow windowMoved
  simp only [bind_judge_active, bind_judge_next, sourcesIf_active, sourcesIf_next]
  rfl

/-- ACTIVE with a window's record moved by what was found due for it. -/
def activeMoved (only : Option SourceId) (inActive : Bool) (w : WindowId) (s : State) : Layout :=
  { s.active with records := put s.active.records w (moved s.active.records[w] (dueActive only inActive s w)) }

/-- NEXT, while it exists, with a window's record moved by what was found due for it. -/
def nextMoved (only : Option SourceId) (w : WindowId) (s : State) : Option Layout :=
  s.next.map fun l => { l with records := put l.records w (moved l.records[w] (due only s l.records[w])) }

theorem nextMoved_of {only : Option SourceId} {w : WindowId} {s : State} {f : LayoutRecord → LayoutRecord}
    (same : ∀ l, s.next = some l → f l.records[w] = moved l.records[w] (due only s l.records[w])) :
    (s.next.map fun l => { l with records := put l.records w (f l.records[w]) }) = nextMoved only w s := by
  unfold nextMoved
  cases is : s.next with
  | none => rfl
  | some l => rw [Option.map_some, Option.map_some, same l is]

/-- What the evaluation leaves of a window's records, gate and flags before the reports. -/
theorem windowMoved_eq (only : Option SourceId) (inActive : Bool) (w : WindowId) (s : State) :
    ∃ p, windowMoved only inActive w s = { s with
        active := activeMoved only inActive w s, next := nextMoved only w s
        gates := if switchesAt only inActive s w then put s.gates w .armed else s.gates
        poster := p }
      ∧ s.poster.flags ⊆ p.flags ∧ p.events = s.poster.events ∧ p.allocation = s.poster.allocation
      ∧ ((moved s.active.records[w] (dueActive only inActive s w)).effective ≠ s.active.records[w].effective →
          .image w ∈ p.flags) := by
  obtain ⟨p, active, flags, events, allocation, flagged⟩ := putActive_eq w
    (inActive && examined only s.active.records[w]) (fun r => moved r (dueActive only inActive s w)) s
  have same : (if inActive && examined only s.active.records[w] then
      moved s.active.records[w] (dueActive only inActive s w) else s.active.records[w])
      = moved s.active.records[w] (dueActive only inActive s w) := by
    split
    · rfl
    · next not =>
      have none : dueActive only inActive s w = none := by
        rw [← bind_judge_active, if_neg not]
        rfl
      rw [none, moved_none]
  rw [same] at active
  have chosen : ∀ l, s.next = some l → (if examined only l.records[w] then moved l.records[w] (dueNext only s w)
      else l.records[w]) = moved l.records[w] (due only s l.records[w]) := by
    intro l is
    have found : dueNext only s w = due only s l.records[w] := by rw [dueNext, nextRecordOf, is]; rfl
    rw [found]
    split
    · rfl
    · next not => rw [due, if_neg not, moved_none]
  have next := putNext_eq w (examined only) (fun r => moved r (dueNext only s w))
    { s with active := activeMoved only inActive w s, poster := p }
  replace next := next.trans (congrArg (fun n => { s with
    active := activeMoved only inActive w s, next := n, poster := p }) (nextMoved_of (only := only) (w := w) (s := s)
      (f := fun r => if examined only r then moved r (dueNext only s w) else r) chosen))
  obtain ⟨q, armed, flags', events', allocation'⟩ := armGate_eq w (switchesAt only inActive s w)
    { s with active := activeMoved only inActive w s, next := nextMoved only w s, poster := p }
  refine ⟨q, ?_, List.Subset.trans flags flags', events'.trans events, allocation'.trans allocation, fun differ => ?_⟩
  · unfold windowMoved
    rw [active]
    exact (congrArg (fun t => if switchesAt only inActive s w then armGate w t else t) next).trans armed
  · refine flags' (flagged ?_ differ)
    refine Bool.not_eq_false _ |>.mp fun not => differ ?_
    have none : dueActive only inActive s w = none := by
      rw [← bind_judge_active, not]
      rfl
    rw [none, moved_none]

theorem map_records (f : Layout → Vector LayoutRecord 64) (o : Option Layout) :
    ∃ rn, o.map (fun l => { l with records := f l }) = o.map fun l => { l with records := rn } := by
  cases o with
  | none => exact ⟨.replicate 64 .blank, rfl⟩
  | some l => exact ⟨f l, rfl⟩

/-- One window evaluated. -/
theorem evaluateWindow_on (only : Option SourceId) (inActive : Bool) (w : WindowId) (s : State) :
    EvaluatedOn only inActive [w] s (evaluateWindow only inActive w s) := by
  obtain ⟨p, moves, flags, events, allocation, flagged⟩ := windowMoved_eq only inActive w s
  have known : ∀ m, dueNext only s w = some m → (nextRecordOf s w).isSome := by
    intro m found
    unfold dueNext at found
    obtain ⟨r, is, _⟩ := Option.bind_eq_some_iff.1 found
    rw [is]
    rfl
  obtain ⟨es, told, ⟨q, n, posts⟩, hands, more⟩ := reportMoves_told (w := w) (a := dueActive only inActive s w)
    (ra := s.active.records[w]) known (windowMoved only inActive w s)
  rw [evaluateWindow_eq]
  generalize reportMoves _ _ _ _ = u at posts hands more ⊢
  have quiet : Hands [] s (windowMoved only inActive w s) := by
    rw [moves]
    exact .of_stays rfl rfl events allocation
  rw [moves] at posts more
  have flags' : p.flags ⊆ u.poster.flags := more
  refine ⟨?_, fun v => ?_, fun v => ?_, fun v => ?_, fun v differ => ?_, List.Subset.trans flags flags',
    fun _ => es, ?_, fun v mem => ?_⟩
  · obtain ⟨rn, next⟩ := map_records
      (fun l => put l.records w (moved l.records[w] (due only s l.records[w]))) s.next
    have next' : nextMoved only w s = _ := next
    rw [next'] at posts
    exact ⟨_, _, _, _, _, posts⟩
  · rw [posts]
    refine (put_get s.active.records w v _).trans ?_
    by_cases same : w = v
    · simp [same]
    · simp [same, Ne.symm same]
  · rw [posts]
    unfold nextRecordOf nextMoved
    cases s.next with
    | none => rfl
    | some l =>
      refine congrArg some ((put_get l.records w v _).trans ?_)
      by_cases same : w = v
      · simp [same]
      · simp [same, Ne.symm same]
  · rw [posts]
    show (if switchesAt only inActive s w then put s.gates w .armed else s.gates)[v] = _
    by_cases yes : switchesAt only inActive s w = true
    · rw [if_pos yes, put_get]
      by_cases same : w = v
      · subst same
        simp [yes]
      · simp [same, Ne.symm same]
    · rw [if_neg yes, if_neg]
      rintro ⟨here, switches⟩
      exact yes (List.mem_singleton.1 here ▸ switches)
  · have here : (activeMoved only inActive w s).records[v].effective ≠ s.active.records[v].effective := by
      rw [posts] at differ
      exact differ
    by_cases same : w = v
    · subst same
      refine flags' (flagged ?_)
      rwa [activeMoved, put_self] at here
    · exact absurd (congrArg LayoutRecord.effective (put_of_ne _ _ _ _ same)) here
  · rw [List.flatMap_singleton]
    exact quiet.quiet_trans hands
  · obtain rfl := List.mem_singleton.1 mem
    exact told

theorem dueActive_congr {only : Option SourceId} {inActive : Bool} {s t : State} {w : WindowId}
    (cadence : t.cadence = s.cadence) (same : t.active.records[w] = s.active.records[w]) :
    dueActive only inActive t w = dueActive only inActive s w := by
  rw [dueActive, dueActive, due_congr only cadence, same]

theorem dueNext_congr {only : Option SourceId} {s t : State} {w : WindowId} (cadence : t.cadence = s.cadence)
    (same : nextRecordOf t w = nextRecordOf s w) : dueNext only t w = dueNext only s w := by
  rw [dueNext, dueNext, due_congr only cadence, same]

theorem evaluatedOn_nil (only : Option SourceId) (inActive : Bool) (s : State) : EvaluatedOn only inActive [] s s := by
  obtain ⟨rn, next⟩ := map_records (fun l => l.records) s.next
  have same : (s.next.map fun l => { l with records := l.records }) = s.next := by cases s.next <;> rfl
  rw [same] at next
  refine ⟨⟨_, _, _, _, _, congrArg (fun n => { s with next := n }) next⟩, fun w => ?_, fun w => ?_, fun w => ?_,
    fun w differ => absurd rfl differ, List.Subset.refl _, fun _ => [], .refl s, fun w mem => absurd mem List.not_mem_nil⟩
  · simp
  · simp
  · simp

/-- One window is evaluated, then others. -/
theorem evaluatedOn_cons {only : Option SourceId} {inActive : Bool} {w : WindowId} {ws : List WindowId} {s t u : State}
    (fresh : w ∉ ws) (first : EvaluatedOn only inActive [w] s t) (others : EvaluatedOn only inActive ws t u) :
    EvaluatedOn only inActive (w :: ws) s u := by
  obtain ⟨ra, rn, g, p, n, rest⟩ := first.rest
  obtain ⟨ra', rn', g', p', n', rest'⟩ := others.rest
  have cadence : t.cadence = s.cadence := by rw [rest]
  have other : ∀ {v}, v ∈ ws → v ≠ w := by
    rintro v mem rfl
    exact fresh mem
  have unmoved : ∀ v, v ∈ ws → t.active.records[v] = s.active.records[v] := fun v mem => by
    rw [first.active, if_neg]
    intro here
    exact fresh (List.mem_singleton.1 here ▸ mem)
  have unmoved' : ∀ v, v ∈ ws → nextRecordOf t v = nextRecordOf s v := fun v mem => by
    rw [first.next]
    simp [other mem]
  have found : ∀ v, v ∈ ws → dueActive only inActive t v = dueActive only inActive s v := fun v mem =>
    dueActive_congr cadence (unmoved v mem)
  have found' : ∀ v, v ∈ ws → dueNext only t v = dueNext only s v := fun v mem => dueNext_congr cadence (unmoved' v mem)
  obtain ⟨es, hands, told⟩ := first.events
  obtain ⟨fs, hands', told'⟩ := others.events
  refine ⟨⟨ra', rn', g', p', n', ?_⟩, fun v => ?_, fun v => ?_, fun v => ?_, fun v differ => ?_,
    List.Subset.trans first.flags others.flags, fun v => if v = w then es w else fs v, ?_, fun v mem => ?_⟩
  · rw [rest', rest]
    cases s.next <;> rfl
  · rw [others.active]
    by_cases mem : v ∈ ws
    · rw [if_pos mem, if_pos (List.mem_cons_of_mem w mem), unmoved v mem, found v mem]
    · rw [if_neg mem, first.active]
      simp [mem]
  · rw [others.next]
    by_cases mem : v ∈ ws
    · rw [unmoved' v mem, due_congr only cadence]
      simp [mem]
    · rw [first.next]
      simp [mem, Function.comp_def]
  · rw [others.gates, first.gates]
    by_cases mem : v ∈ ws
    · rw [show switchesAt only inActive t v = switchesAt only inActive s v by
        rw [switchesAt, switchesAt, found v mem, found' v mem]]
      simp [mem, other mem]
    · simp [mem]
  · by_cases mem : v ∈ ws
    · exact others.flagged v (by rwa [unmoved v mem])
    · have same : u.active.records[v] = t.active.records[v] := by rw [others.active, if_neg mem]
      exact others.flags (first.flagged v (by rwa [← same]))
  · rw [List.flatMap_cons, if_pos rfl]
    rw [List.flatMap_singleton] at hands
    have same : ws.flatMap (fun v => if v = w then es w else fs v) = ws.flatMap fs := by
      rw [List.flatMap_def, List.flatMap_def]
      refine congrArg List.flatten (List.map_congr_left fun v mem => if_neg (other mem))
    rw [same]
    exact hands.trans hands'
  · rcases List.mem_cons.1 mem with rfl | mem
    · show WindowTold v _ _ _ _ (if v = v then es v else fs v)
      rw [if_pos rfl]
      exact told v (List.mem_singleton_self v)
    · show WindowTold v _ _ _ _ (if v = w then es w else fs v)
      rw [if_neg (other mem), ← found v mem, ← found' v mem, ← unmoved v mem, ← unmoved' v mem]
      exact told' v mem

theorem evaluateWindows_on (only : Option SourceId) (inActive : Bool) (ws : List WindowId) (s : State) (nodup : ws.Nodup) :
    EvaluatedOn only inActive ws s (ws.foldl (fun s w => evaluateWindow only inActive w s) s) := by
  induction ws generalizing s with
  | nil => exact evaluatedOn_nil only inActive s
  | cons w ws ih =>
    obtain ⟨fresh, nodup⟩ := List.nodup_cons.1 nodup
    exact evaluatedOn_cons fresh (evaluateWindow_on only inActive w s) (ih _ nodup)

/-- Every window evaluated (R144). -/
theorem evaluateFailover_on (only : Option SourceId) (inActive : Bool) (s : State) :
    EvaluatedOn only inActive (List.finRange 64) s (evaluateFailover only inActive s) :=
  evaluateWindows_on only inActive _ s (List.nodup_finRange 64)

end Sys2Proof.Failover
/-! The evaluation that follows a change of a source's cadence state, in the terms of `Evaluated`. -/

namespace Sys2Proof.Failover

open Sys2Proof Sys2Proof.Machine Sys2Proof.Events

/-! ## What is due at a change of a source's state -/

theorem examined_iff (src : SourceId) (r : LayoutRecord) :
    examined (some src) r = (r.window.primary == src.val || r.window.alternate == some src.val) := rfl

/-- What is due for a record of a window that fails over by itself (R144, R145). -/
theorem judge_auto {s : State} {r : LayoutRecord} (used : r.window.state ≠ .unused) (mode : r.window.mode = .auto) :
    judge s r = if failoverHolds s r then some .failover else if failbackHolds s r then some .failback else none := by
  unfold judge failoverHolds failbackHolds failoverDue failbackDue
  rw [if_neg used, mode]
  cases is : r.window.alternate with
  | none => simp
  | some a =>
    have same : (some a == some r.effective) = (r.effective == a) := by
      rw [Bool.eq_iff_iff, beq_iff_eq, beq_iff_eq, Option.some_inj, eq_comm]
    rw [same, Option.any_some]

/-- What is due for a record of a window that only advises (R146). -/
theorem judge_notify {s : State} {r : LayoutRecord} (used : r.window.state ≠ .unused) (mode : r.window.mode = .notify) :
    judge s r = if failoverHolds s r then some .advised else none := by
  unfold judge failoverHolds failoverDue
  rw [if_neg used, mode]
  cases is : r.window.alternate with
  | none => simp
  | some a => simp

theorem due_failover_iff (src : SourceId) (s : State) (r : LayoutRecord) :
    due (some src) s r = some .failover ↔ failsOver src s r = true := by
  unfold due failsOver examinedIn
  rw [examined_iff]
  by_cases used : r.window.state = .unused
  · simp [judge, used]
  · cases mode : r.window.mode with
    | off => simp [judge, used, mode]
    | auto =>
      rw [judge_auto used mode]
      grind
    | notify =>
      rw [judge_notify used mode]
      grind

theorem due_failback_iff (src : SourceId) (s : State) (r : LayoutRecord) :
    due (some src) s r = some .failback ↔ failsBack src s r = true := by
  unfold due failsBack examinedIn
  rw [examined_iff]
  by_cases used : r.window.state = .unused
  · simp [judge, used]
  · cases mode : r.window.mode with
    | off => simp [judge, used, mode]
    | auto =>
      rw [judge_auto used mode]
      have apart : failbackHolds s r = true → failoverHolds s r = false := by
        unfold failbackHolds failoverHolds
        grind
      grind
    | notify =>
      rw [judge_notify used mode]
      grind

theorem due_advised_iff (src : SourceId) (s : State) (r : LayoutRecord) :
    due (some src) s r = some .advised ↔ isAdvised src s r = true := by
  unfold due isAdvised examinedIn
  rw [examined_iff]
  by_cases used : r.window.state = .unused
  · simp [judge, used]
  · cases mode : r.window.mode with
    | off => simp [judge, used, mode]
    | auto =>
      rw [judge_auto used mode]
      grind
    | notify =>
      rw [judge_notify used mode]
      grind

/-- The property of a record for which this move is due. -/
def holdsFor (src : SourceId) (s : State) : Move → LayoutRecord → Bool
  | .failover => failsOver src s
  | .failback => failsBack src s
  | .advised => isAdvised src s

theorem due_iff (src : SourceId) (s : State) (m : Move) (r : LayoutRecord) :
    due (some src) s r = some m ↔ holdsFor src s m r = true := by
  cases m with
  | failover => exact due_failover_iff src s r
  | failback => exact due_failback_iff src s r
  | advised => exact due_advised_iff src s r

theorem due_beq (src : SourceId) (s : State) (m : Move) (r : LayoutRecord) :
    (due (some src) s r == some m) = holdsFor src s m r := by
  rw [Bool.eq_iff_iff, beq_iff_eq, due_iff]

theorem moved_due (src : SourceId) (s : State) (r : LayoutRecord) :
    moved r (due (some src) s r) = afterEvaluation src s r := by
  unfold afterEvaluation
  split
  · next yes => rw [(due_failover_iff src s r).2 yes]; rfl
  · next not =>
    split
    · next yes => rw [(due_failback_iff src s r).2 yes]; rfl
    · next not' =>
      cases found : due (some src) s r with
      | none => rfl
      | some m =>
        cases m with
        | failover => exact absurd ((due_failover_iff src s r).1 found) not
        | failback => exact absurd ((due_failback_iff src s r).1 found) not'
        | advised => rfl

theorem holdsFor_congr {s t : State} (src : SourceId) (cadence : t.cadence = s.cadence) (m : Move) :
    holdsFor src t m = holdsFor src s m :=
  funext fun r => by rw [← due_beq, ← due_beq, due_congr _ cadence]

theorem afterEvaluation_congr {s t : State} (src : SourceId) (cadence : t.cadence = s.cadence) :
    afterEvaluation src t = afterEvaluation src s :=
  funext fun r => by rw [← moved_due, ← moved_due, due_congr _ cadence]

/-- The copies a move is due in, as R172 codes them. -/
theorem copiesCode_due (src : SourceId) (t s : State) (m : Move) (w : WindowId) (cadence : t.cadence = s.cadence) :
    copiesCode (dueActive (some src) true s w == some m) (dueNext (some src) s w == some m)
      = copiesWhere (holdsFor src t m) s w := by
  rw [holdsFor_congr src cadence]
  unfold copiesCode copiesWhere dueActive dueNext nextRecordOf
  rw [if_pos rfl, due_beq]
  cases s.next with
  | none => rfl
  | some l =>
    rw [Option.map_some, Option.bind_some, due_beq]
    rfl

theorem code_ne_zero (a b : Bool) : (a.toNat + 2 * b.toNat != 0) = (a || b) := by
  cases a <;> cases b <;> rfl

theorem copiesWhere_ne_zero (src : SourceId) (t s : State) (m : Move) (w : WindowId) (cadence : t.cadence = s.cadence) :
    copiesWhere (holdsFor src t m) s w ≠ 0
      ↔ dueActive (some src) true s w = some m ∨ dueNext (some src) s w = some m := by
  rw [← copiesCode_due src t s m w cadence, ← bne_iff_ne, copiesCode, code_ne_zero]
  simp

theorem switches_iff (src : SourceId) (t s : State) (w : WindowId) (cadence : t.cadence = s.cadence) :
    switches src t s w = switchesAt (some src) true s w := by
  have each : ∀ r, (failsOver src t r || failsBack src t r)
      = (due (some src) s r == some .failover || due (some src) s r == some .failback) := fun r => by
    rw [due_beq, due_beq, ← holdsFor_congr src cadence, ← holdsFor_congr src cadence]
    rfl
  unfold switches switchesAt copiesWhere dueActive dueNext nextRecordOf
  simp only [each, code_ne_zero]
  cases s.next with
  | none => simp
  | some l => simp [Bool.or_assoc]

/-! ## The events of an evaluation -/

/-- The extra field of the event that reports a move of a record. -/
def moveWord (m : Move) (r : LayoutRecord) : Word :=
  sourcesWord (moveSources r m).1 (moveSources r m).2 (if m = .failback then 1 else 0)

theorem moveEvent_extra (w : WindowId) (m : Move) (copies : Nat) (r : LayoutRecord) :
    (moveEvent w m copies r).extra = moveWord m r := by cases m <;> rfl

/-- The events of a kind of move, window by window. -/
def movesOf (m : Move) (es : WindowId → List Event) : List Event :=
  (List.finRange 64).flatMap fun w => (es w).filter fun e => e.kind == kindOf m

theorem byteNat_kindOf {e : Event} {k m : Move} (kind : e.kind = kindOf k) :
    (byteNat e.kind == byteNat (kindOf m)) = (e.kind == kindOf m) := by
  rw [kind]
  cases k <;> cases m <;> decide

/-- The events of a stretch of one evaluation, of the kind that reports this move. -/
theorem filter_moves {m : Move} {pre post : List Event} {es : WindowId → List Event}
    (aside : ∀ e ∈ pre ++ post, byteNat e.kind ≠ byteNat (kindOf m)) (kinds : ∀ w, ∀ e ∈ es w, ∃ k, e.kind = kindOf k) :
    (pre ++ (List.finRange 64).flatMap es ++ post).filter (fun e => byteNat e.kind == byteNat (kindOf m))
      = movesOf m es := by
  have none : ∀ l : List Event, (∀ e ∈ l, e ∈ pre ++ post) →
      l.filter (fun e => byteNat e.kind == byteNat (kindOf m)) = [] := fun l mem =>
    List.filter_eq_nil_iff.2 fun e here => by simpa using aside e (mem e here)
  rw [List.filter_append, List.filter_append, none pre fun e => List.mem_append_left post,
    none post fun e => List.mem_append_right pre, List.nil_append, List.append_nil, List.filter_flatMap, movesOf,
    List.flatMap_def, List.flatMap_def]
  refine congrArg List.flatten (List.map_congr_left fun w _ => List.filter_congr fun e mem => ?_)
  obtain ⟨k, kind⟩ := kinds w e mem
  exact byteNat_kindOf kind

theorem movesOf_kind {m : Move} {es : WindowId → List Event} {e : Event} (mem : e ∈ movesOf m es) : e.kind = kindOf m := by
  obtain ⟨w, _, here⟩ := List.mem_flatMap.1 mem
  exact eq_of_beq (List.mem_filter.1 here).2

/-- The records handed over of the kind that reports a move tell of the windows it is due for. -/
theorem newEvents_moves {s u : State} {m : Move} {pre post : List Event} {es : WindowId → List Event}
    (hands : Hands (pre ++ (List.finRange 64).flatMap es ++ post) s u)
    (room : unread s + (pre ++ (List.finRange 64).flatMap es ++ post).length ≤ 255)
    (enabled : eventEnabled s.shadow (kindOf m) = true)
    (aside : ∀ e ∈ pre ++ post, byteNat e.kind ≠ byteNat (kindOf m)) (kinds : ∀ w, ∀ e ∈ es w, ∃ k, e.kind = kindOf k) :
    ((newEvents s u).filter fun r => r.kind == byteNat (kindOf m)).map bare = (movesOf m es).map (told s.wallTime) := by
  have same : ∀ l : List EventRecord, (l.filter fun r => r.kind == byteNat (kindOf m)).map bare
      = (l.map bare).filter fun r => r.kind == byteNat (kindOf m) := fun l => by
    rw [List.filter_map]
    rfl
  rw [same, hands.newEvents room, toldOf, List.filter_map]
  refine congrArg (List.map (told s.wallTime)) ?_
  have swap : ∀ l : List Event, (l.filter fun e => eventEnabled s.shadow e.kind).filter
        ((fun r : EventRecord => r.kind == byteNat (kindOf m)) ∘ told s.wallTime)
      = (l.filter fun e => byteNat e.kind == byteNat (kindOf m)).filter fun e => eventEnabled s.shadow e.kind := fun l => by
    rw [List.filter_filter, List.filter_filter]
    exact List.filter_congr fun e _ => Bool.and_comm _ _
  rw [swap, filter_moves aside kinds]
  exact List.filter_eq_self.2 fun e mem => by rw [movesOf_kind mem, enabled]

/-- The reports of the windows a move is due for are what `Reported` says of it. -/
theorem reported_of {src : SourceId} {s v u : State} {m : Move} {pre post : List Event} {es : WindowId → List Event}
    (records : v.active.records = s.active.records) (nexts : v.next = s.next) (cadence : u.cadence = v.cadence)
    (hands : Hands (pre ++ (List.finRange 64).flatMap es ++ post) s u)
    (room : unread s + (pre ++ (List.finRange 64).flatMap es ++ post).length ≤ 255)
    (enabled : eventEnabled s.shadow (kindOf m) = true)
    (aside : ∀ e ∈ pre ++ post, byteNat e.kind ≠ byteNat (kindOf m))
    (each : ∀ w, WindowTold w (dueActive (some src) true v w) (dueNext (some src) v w) v.active.records[w]
      (nextRecordOf v w) (es w)) : Reported s u (kindOf m) (holdsFor src u m) (moveWord m) := by
  have moves := newEvents_moves hands room enabled aside fun w => (each w).kinds
  have copies : ∀ w, copiesWhere (holdsFor src u m) s w = copiesWhere (holdsFor src u m) v w := fun w => by
    rw [copiesWhere, copiesWhere, records, nexts]
  have isDue := fun w => copiesWhere_ne_zero src u v m w cadence
  have one : ∀ w, ∀ e, e ∈ (es w).filter (fun e => e.kind == kindOf m) → copiesWhere (holdsFor src u m) s w ≠ 0
      ∧ e.subject = w.val ∧ (es w).filter (fun e => e.kind == kindOf m) = [e] := by
    intro w e mem
    have due : dueActive (some src) true v w = some m ∨ dueNext (some src) v w = some m := by
      refine Classical.byContradiction fun not => ?_
      rw [(each w).quiet m (fun h => not (.inl h)) fun h => not (.inr h)] at mem
      exact List.not_mem_nil mem
    obtain ⟨r, _, single⟩ := (each w).one m due
    rw [single] at mem ⊢
    obtain rfl := List.mem_singleton.1 mem
    exact ⟨copies w ▸ (isDue w).2 due, moveEvent_subject .., rfl⟩
  refine ⟨?_, fun w some => ?_, fun e mem kind => ?_⟩
  · have ordered : ((movesOf m es).map (told s.wallTime)).Pairwise fun a b => a.subject.toNat < b.subject.toNat := by
      rw [List.pairwise_map, movesOf, List.pairwise_flatMap]
      refine ⟨fun w _ => ?_, ?_⟩
      · cases is : (es w).filter (fun e => e.kind == kindOf m) with
        | nil => exact List.Pairwise.nil
        | cons e l =>
          obtain ⟨_, _, single⟩ := one w e (is ▸ List.mem_cons_self)
          rw [is] at single
          rw [single]
          exact List.pairwise_singleton _ _
      · refine (List.pairwise_lt_finRange 64).imp fun {w v} less x x_mem y y_mem => ?_
        have first := (one w x x_mem).2.1
        have second := (one v y y_mem).2.1
        show (halfNat x.subject).toNat < (halfNat y.subject).toNat
        rw [first, second, halfNat, halfNat, BitVec.toNat_ofNat, BitVec.toNat_ofNat]
        omega
    rw [← moves, List.pairwise_map] at ordered
    exact ordered
  · rw [copies] at some
    have due := (isDue w).1 some
    obtain ⟨r, which, single⟩ := (each w).one m due
    have mem : told s.wallTime (moveEvent w m (copiesCode (dueActive (.some src) true v w == .some m)
        (dueNext (.some src) v w == .some m)) r) ∈ (movesOf m es).map (told s.wallTime) :=
      List.mem_map_of_mem (List.mem_flatMap.2 ⟨w, List.mem_finRange w, by rw [single]; exact List.mem_singleton_self _⟩)
    rw [← moves] at mem
    obtain ⟨e, e_mem, tells⟩ := List.mem_map.1 mem
    obtain ⟨kind, detail, subject, _, _, extra⟩ := of_bare tells
    rw [moveEvent_kind] at kind
    rw [moveEvent_detail, copiesCode_due src u v m w cadence, ← copies] at detail
    rw [moveEvent_subject] at subject
    rw [moveEvent_extra] at extra
    refine ⟨e, (List.mem_filter.1 e_mem).1, kind, subject, detail, r, ?_, ?_, extra⟩
    · rcases which with ⟨_, rfl⟩ | ⟨_, is⟩
      · exact .inl (by rw [records])
      · unfold nextRecordOf at is
        obtain ⟨l, next, rfl⟩ := Option.map_eq_some_iff.1 is
        exact .inr ⟨l, nexts ▸ next, rfl⟩
    · rw [holdsFor_congr src cadence, ← due_iff]
      rcases which with ⟨found, rfl⟩ | ⟨found, is⟩
      · exact found
      · rwa [dueNext, is] at found
  · have here : bare e ∈ (movesOf m es).map (told s.wallTime) := by
      rw [← moves]
      exact List.mem_map_of_mem (List.mem_filter.2 ⟨mem, by rw [kind]; exact BEq.rfl⟩)
    obtain ⟨x, x_mem, tells⟩ := List.mem_map.1 here
    obtain ⟨w, _, here⟩ := List.mem_flatMap.1 x_mem
    obtain ⟨some, subject, _⟩ := one w x here
    refine ⟨w, some, ?_⟩
    rw [(of_bare tells.symm).2.2.1, subject]

theorem flatMap_length_le {es : WindowId → List Event} (few : ∀ w, (es w).length ≤ 2) (ws : List WindowId) :
    (ws.flatMap es).length ≤ 2 * ws.length := by
  induction ws with
  | nil => exact Nat.zero_le _
  | cons w ws ih =>
    have := few w
    rw [List.flatMap_cons, List.length_append, List.length_cons]
    omega

/-- NEXT after an evaluation of every window. -/
theorem next_evaluated {only : Option SourceId} {inActive : Bool} {s t : State}
    (on : EvaluatedOn only inActive (List.finRange 64) s t) :
    t.next = s.next.map fun l => { l with records := l.records.map fun r => moved r (due only s r) } := by
  obtain ⟨ra, rn, g, p, n, rest⟩ := on.rest
  have next : t.next = s.next.map fun l => { l with records := rn } := by rw [rest]
  have each := on.next
  unfold nextRecordOf at each
  rw [next] at each ⊢
  cases is : s.next with
  | none => rfl
  | some l =>
    rw [is] at each
    rw [Option.map_some, Option.map_some]
    have same : rn = l.records.map fun r => moved r (due only s r) := by
      ext i bound : 1
      have at_i : rn[i] = if (⟨i, bound⟩ : WindowId) ∈ List.finRange 64 then
          moved l.records[i] (due only s l.records[i]) else l.records[i] := Option.some.inj (each ⟨i, bound⟩)
      rw [Vector.getElem_map, at_i, if_pos (List.mem_finRange _)]
    rw [same]

theorem active_evaluated {only : Option SourceId} {inActive : Bool} {s t : State}
    (on : EvaluatedOn only inActive (List.finRange 64) s t) (w : WindowId) :
    t.active.records[w] = moved s.active.records[w] (dueActive only inActive s w) := by
  rw [on.active, if_pos (List.mem_finRange w)]

theorem gates_evaluated {only : Option SourceId} {inActive : Bool} {s t : State}
    (on : EvaluatedOn only inActive (List.finRange 64) s t) (w : WindowId) :
    t.gates[w] = if switchesAt only inActive s w then .armed else s.gates[w] := by
  rw [on.gates]
  simp [List.mem_finRange]

/-- The evaluation of every window for a source, among other events of the change of its state. -/
theorem evaluated_of {src : SourceId} {s v t u : State} {pre post : List Event}
    (on : EvaluatedOn (some src) true (List.finRange 64) v t) (active : v.active = s.active) (nexts : v.next = s.next)
    (activeAfter : u.active = t.active) (nextAfter : u.next = t.next) (cadence : u.cadence = v.cadence)
    (flags : t.poster.flags ⊆ u.poster.flags) (before : Hands pre s v) (after : Hands post t u)
    (few : pre.length + post.length ≤ 2)
    (aside : ∀ e ∈ pre ++ post, ∀ m, byteNat e.kind ≠ byteNat (kindOf m)) : Evaluated src s u := by
  obtain ⟨es, hands, told⟩ := on.events
  have each := fun w => told w (List.mem_finRange w)
  have all : Hands (pre ++ (List.finRange 64).flatMap es ++ post) s u := (before.trans hands).trans after
  have long := flatMap_length_le (fun w => (each w).few) (List.finRange 64)
  rw [List.length_finRange] at long
  have records : ∀ w : WindowId, u.active.records[w] = afterEvaluation src u s.active.records[w] := by
    intro w
    rw [activeAfter, active_evaluated on, dueActive, if_pos rfl, moved_due, active, afterEvaluation_congr src cadence]
  have epoch : t.active.epoch = v.active.epoch := by
    obtain ⟨ra, rn, g, p, n, rest⟩ := on.rest
    rw [rest]
  have reports : ∀ m, eventEnabled s.shadow (kindOf m) = true → unread s ≤ 125 →
      Reported s u (kindOf m) (holdsFor src u m) (moveWord m) := by
    intro m enabled room
    refine reported_of (congrArg Layout.records active) nexts cadence all ?_ enabled (fun e mem => aside e mem m) each
    rw [List.length_append, List.length_append]
    omega
  refine ⟨records, ?_, ?_, fun w differ => ?_, reports .failover, reports .advised, reports .failback⟩
  · rw [nextAfter, next_evaluated on, nexts]
    simp only [moved_due]
    rw [afterEvaluation_congr src cadence]
  · rw [activeAfter, epoch, active]
  · refine flags (on.flagged w ?_)
    rw [← activeAfter, active]
    exact differ

theorem gates_switched {src : SourceId} {s v t u : State} (on : EvaluatedOn (some src) true (List.finRange 64) v t)
    (active : v.active = s.active) (nexts : v.next = s.next) (cadence : u.cadence = v.cadence) (w : WindowId) :
    t.gates[w] = if switches src u s w then .armed else v.gates[w] := by
  have same : switches src u s w = switches src u v w := by
    rw [switches, switches, copiesWhere, copiesWhere, active, nexts]
  rw [gates_evaluated on, same, switches_iff src u v w cadence]

end Sys2Proof.Failover
/-! PROOF of O15: frame starts. -/

namespace Sys2Proof.Frames

open Sys2Proof Sys2Proof.Machine Sys2Proof.Events Sys2Proof.Failover

/-! ## The cadence record -/

theorem frameRecord_awaiting {m : Shadow} {src : SourceId} {c : Cadence} (state : c.state = .awaiting) :
    frameRecord m src c = { c with state := .learning, elapsed := 0 } := by
  unfold frameRecord
  rw [state]

theorem frameRecord_learning {m : Shadow} {src : SourceId} {c : Cadence} (state : c.state = .learning) :
    frameRecord m src c
      = { c with state := .live, baseline := max 1 c.elapsed, bucket := 0, lowCount := 0, elapsed := 0 } := by
  unfold frameRecord
  rw [state]

theorem frameRecord_stale {m : Shadow} {src : SourceId} {c : Cadence} (state : c.state = .stale) :
    frameRecord m src c = { c with state := .recovering, goodCount := 1, recoveryFrames := 1, elapsed := 0 } := by
  unfold frameRecord
  rw [state]

theorem frameRecord_live {m : Shadow} {src : SourceId} {c : Cadence} (state : c.state = .live) :
    frameRecord m src c = baselineRule m src c c.elapsed := by
  unfold frameRecord
  rw [state]

theorem frameRecord_recovering {m : Shadow} {src : SourceId} {c : Cadence} (state : c.state = .recovering) :
    frameRecord m src c = recoveryRule m src c c.elapsed := by
  unfold frameRecord
  rw [state]

/-- The three cases of the baseline rule (R140). -/
theorem baselineRule_slow {m : Shadow} {src : SourceId} {c : Cadence} {i : Nat} (slow : c.baseline + upperNoise m src ≤ i) :
    baselineRule m src c i = { c with lowCount := 0, elapsed := 0 } := by
  unfold baselineRule
  exact if_pos (by omega)

theorem baselineRule_fast {m : Shadow} {src : SourceId} {c : Cadence} {i : Nat} (notSlow : i < c.baseline + upperNoise m src)
    (fast : i + lowerNoise m src ≤ c.baseline) :
    baselineRule m src c i = if lowRun m src ≤ c.lowCount + 1 then
        { c with baseline := max 1 i, bucket := 0, lowCount := 0, elapsed := 0 }
      else { c with lowCount := c.lowCount + 1, elapsed := 0 } := by
  unfold baselineRule
  exact (if_neg (by omega)).trans (if_pos (by omega))

theorem baselineRule_inBand {m : Shadow} {src : SourceId} {c : Cadence} {i : Nat} (notSlow : i < c.baseline + upperNoise m src)
    (notFast : c.baseline < i + lowerNoise m src) {b : Int} (is : b = c.bucket + ((i : Int) - (c.baseline : Int))) :
    baselineRule m src c i = if (bucketThreshold m src : Int) ≤ b then
        { c with baseline := min 65535 (c.baseline + 1), bucket := 0, lowCount := 0, elapsed := 0 }
      else if b ≤ -(bucketThreshold m src : Int) then
        { c with baseline := max 1 (c.baseline - 1), bucket := 0, lowCount := 0, elapsed := 0 }
      else { c with bucket := b, lowCount := 0, elapsed := 0 } := by
  unfold baselineRule
  subst is
  exact (if_neg (by omega)).trans ((if_neg (by omega)).trans rfl)

/-- The closing sentence of the baseline rule. -/
theorem baselineRule_bounded {m : Shadow} {src : SourceId} {c : Cadence} (low : 1 ≤ c.baseline) (high : c.baseline ≤ 65535)
    (elapsed : c.elapsed ≤ 65535) (below : -(bucketThreshold m src : Int) < c.bucket)
    (above : c.bucket < (bucketThreshold m src : Int)) :
    1 ≤ (baselineRule m src c c.elapsed).baseline ∧ (baselineRule m src c c.elapsed).baseline ≤ 65535
      ∧ -(bucketThreshold m src : Int) < (baselineRule m src c c.elapsed).bucket
      ∧ (baselineRule m src c c.elapsed).bucket < (bucketThreshold m src : Int) := by
  by_cases slow : c.baseline + upperNoise m src ≤ c.elapsed
  · rw [baselineRule_slow slow]
    exact ⟨low, high, below, above⟩
  by_cases fast : c.elapsed + lowerNoise m src ≤ c.baseline
  · rw [baselineRule_fast (by omega) fast]
    split <;> dsimp only <;> omega
  · rw [baselineRule_inBand (by omega) (by omega) rfl]
    split
    · dsimp only
      omega
    · split <;> dsimp only <;> omega

theorem notSlow_of_fast {m : Shadow} {src : SourceId} {c : Cadence} (fast : c.elapsed + lowerNoise m src ≤ c.baseline) :
    c.elapsed < c.baseline + upperNoise m src := by
  have positive : 1 ≤ lowerNoise m src := Nat.le_max_left _ _
  omega

/-- What a frame start leaves of a cadence record (R139, R140, R142). -/
theorem frameMoves (m : Shadow) (src : SourceId) (c : Cadence) : FrameMoves m src c (frameRecord m src c) where
  awaiting := frameRecord_awaiting
  learning := frameRecord_learning
  stale := frameRecord_stale
  slow state slow := (frameRecord_live state).trans (baselineRule_slow slow)
  fast state fast := (frameRecord_live state).trans (baselineRule_fast (notSlow_of_fast fast) fast)
  inBand state notSlow notFast b is := (frameRecord_live state).trans (baselineRule_inBand notSlow notFast is)
  bounded state low high elapsed below above := by
    rw [frameRecord_live state]
    exact baselineRule_bounded low high elapsed below above
  onTime state onTime := by
    rw [frameRecord_recovering state]
    exact if_pos onTime
  late state late := by
    rw [frameRecord_recovering state]
    exact if_neg (Nat.not_le.2 late)

/-! ## The gates -/

theorem gateOpens_iff (s : State) (src : SourceId) (w : WindowId) : gateOpens s src w = true
    ↔ s.active.records[w].window.state ≠ .unused ∧ s.active.records[w].effective = src.val ∧ s.commit.state ≠ .inFlight
      ∧ s.fillCount[w] = 0 := by
  simp [gateOpens, and_assoc]

/-- The windows whose gates a frame start opens, among these. -/
theorem openGates_on (src : SourceId) (ws : List WindowId) (s : State) :
    ∃ g p, ws.foldl (fun s w =>
        let r := s.active.records[w]
        if r.window.state ≠ .unused ∧ r.effective = src.val ∧ s.gates[w] = .armed ∧ s.commit.state ≠ .inFlight
            ∧ s.fillCount[w] = 0 then setGate w .opened s
        else s) s = { s with gates := g, poster := p }
      ∧ (∀ w : WindowId, g[w] = if w ∈ ws ∧ gateOpens s src w = true then .opened else s.gates[w])
      ∧ s.poster.flags ⊆ p.flags ∧ p.events = s.poster.events ∧ p.allocation = s.poster.allocation := by
  induction ws generalizing s with
  | nil => exact ⟨s.gates, s.poster, rfl, fun w => by simp, List.Subset.refl _, rfl, rfl⟩
  | cons w ws ih =>
    rw [List.foldl_cons]
    dsimp only
    split
    · next opens =>
      obtain ⟨used, fed, armed, idle, none⟩ := opens
      obtain ⟨g, p, same, gates, flags, events, allocation⟩ := ih (setGate w .opened s)
      refine ⟨g, p, same, fun v => ?_, List.Subset.trans (Indicators.flags_flaggedIf _ _ _) flags, events, allocation⟩
      have opened : gateOpens s src w = true := (gateOpens_iff s src w).2 ⟨used, fed, idle, none⟩
      have put : (setGate w .opened s).gates[v] = if w = v then .opened else s.gates[v] := put_get s.gates w v .opened
      have other : gateOpens (setGate w .opened s) src v = gateOpens s src v := rfl
      rw [gates, put, other]
      by_cases here : v = w
      · subst here
        simp [opened]
      · simp [here, Ne.symm here]
    · next not =>
      obtain ⟨g, p, same, gates, flags, events, allocation⟩ := ih s
      refine ⟨g, p, same, fun v => ?_, flags, events, allocation⟩
      rw [gates]
      by_cases here : v = w
      · subst here
        by_cases mem : v ∈ ws
        · simp [mem]
        · by_cases opens : gateOpens s src v = true
          · have opened : s.gates[v] = .opened := by
              cases is : s.gates[v] with
              | opened => rfl
              | armed =>
                obtain ⟨used, fed, idle, none⟩ := (gateOpens_iff s src v).1 opens
                exact absurd ⟨used, fed, is, idle, none⟩ not
            simp [mem, opened]
          · simp [opens]
      · simp [here]

/-- A frame start opens the gates that meet the conditions (R62). -/
theorem openGates_eq (src : SourceId) (s : State) :
    ∃ g p, openGates src s = { s with gates := g, poster := p }
      ∧ (∀ w : WindowId, g[w] = if gateOpens s src w = true then .opened else s.gates[w])
      ∧ s.poster.flags ⊆ p.flags ∧ p.events = s.poster.events ∧ p.allocation = s.poster.allocation := by
  obtain ⟨g, p, same, gates, rest⟩ := openGates_on src (List.finRange 64) s
  exact ⟨g, p, same, fun w => by simpa [List.mem_finRange] using gates w, rest⟩

/-! ## The Cadence Monitor's side -/

/-- From `s` to `t` the Poster alone changes: its flags grow, and these events are handed over. -/
structure PosterGrows (es : List Event) (s t : State) : Prop where
  flags : s.poster.flags ⊆ t.poster.flags
  hands : Hands es s t

theorem PosterGrows.trans {s t u : State} {es fs : List Event} (h : PosterGrows es s t) (k : PosterGrows fs t u) :
    PosterGrows (es ++ fs) s u := ⟨List.Subset.trans h.flags k.flags, h.hands.trans k.hands⟩

theorem PosterGrows.then {s t u : State} {es : List Event} (h : PosterGrows es s t) (k : PosterGrows [] t u) :
    PosterGrows es s u := ⟨List.Subset.trans h.flags k.flags, h.hands.trans_quiet k.hands⟩

theorem PosterGrows.refl (s : State) : PosterGrows [] s s := ⟨List.Subset.refl _, .refl s⟩

theorem setCadence_grows (src : SourceId) (c : Cadence) (s : State) : PosterGrows [] s (setCadence src c s) :=
  ⟨Indicators.flags_flaggedIf _ _ _, .of_stays rfl rfl rfl rfl⟩

theorem evaluateIndicators_grows (s : State) : PosterGrows [] s (evaluateIndicators s) :=
  ⟨Indicators.flags_flaggedIf _ _ _, .of_stays rfl rfl rfl rfl⟩

theorem postEvent_grows (e : Event) (s : State) : PosterGrows [e] s (postEvent e s) :=
  ⟨(Indicators.postEvent_kept e s).flags, hands_postEvent e s⟩

theorem openGates_grows (src : SourceId) (s : State) : PosterGrows [] s (openGates src s) := by
  obtain ⟨g, p, same, _, flags, events, allocation⟩ := openGates_eq src s
  rw [same]
  exact ⟨flags, .of_stays rfl rfl events allocation⟩

theorem choices_grows (n : Nat) (s : State) : PosterGrows [] s { s with choices := n } :=
  ⟨List.Subset.refl _, .of_stays rfl rfl rfl rfl⟩

/-- The record a frame start leaves of its source. -/
def framed (src : SourceId) (s : State) : Cadence := frameRecord s.shadow src s.cadence[src]

/-- The event of a recovery that reaches LIVE (R142). -/
def liveEvents (src : SourceId) (s : State) : List Event :=
  if s.cadence[src].state = .recovering then [evSourceLive src (framed src s).baseline (framed src s).recoveryFrames] else []

/-- The state before the evaluations that follow a change of a cadence state. -/
def reported (src : SourceId) (s : State) : State :=
  if s.cadence[src].state = .recovering then
    postEvent (evSourceLive src (framed src s).baseline (framed src s).recoveryFrames) (setCadence src (framed src s) s)
  else setCadence src (framed src s) s

theorem reported_grows (src : SourceId) (s : State) : PosterGrows (liveEvents src s) s (reported src s) := by
  unfold reported liveEvents
  split
  · exact (setCadence_grows src _ s).trans (postEvent_grows _ _)
  · exact setCadence_grows src _ s

theorem reported_eq (src : SourceId) (s : State) :
    ∃ p, reported src s = { s with cadence := put s.cadence src (framed src s), poster := p } := by
  unfold reported
  split <;> exact ⟨_, rfl⟩

theorem cadenceFrame_steady {src : SourceId} {s : State} (steady : (framed src s).state = s.cadence[src].state) :
    cadenceFrame src s = setCadence src (framed src s) s := if_pos steady

theorem cadenceFrame_moved {src : SourceId} {s : State} (moved : (framed src s).state ≠ s.cadence[src].state) :
    cadenceFrame src s = evaluateIndicators (evaluateFailover (some src) true (reported src s)) := if_neg moved

/-- A frame start that moves the state evaluates failover and opens gates, in either order. -/
structure FrameEvaluated (src : SourceId) (s u : State) : Prop where
  evaluated : ∃ v t, EvaluatedOn (some src) true (List.finRange 64) v t ∧ v.active = s.active ∧ v.next = s.next
    ∧ v.cadence = u.cadence ∧ u.active = t.active ∧ u.next = t.next ∧ PosterGrows (liveEvents src s) s v
    ∧ PosterGrows [] t u
  others : ∀ w : WindowId, switches src u s w = false → u.gates[w] = if gateOpens s src w then .opened else s.gates[w]
  switched : ∀ w : WindowId, switches src u s w = true →
    u.gates[w] = .armed ∨ (u.gates[w] = .opened ∧ gateOpens u src w = true)
  armed : s.commit.state = .inFlight → ∀ w : WindowId, s.gates[w] = .armed → u.gates[w] = .armed
  cadence : u.cadence = put s.cadence src (framed src s)
  fillCount : u.fillCount = s.fillCount

theorem not_gateOpens {s : State} {src : SourceId} {w : WindowId} (flying : s.commit.state = .inFlight) :
    gateOpens s src w = false := by
  simp [gateOpens, flying]

/-- A window that does not switch keeps its record of ACTIVE. -/
theorem active_unswitched {src : SourceId} {s u : State} {w : WindowId} (not : switches src u s w = false) :
    afterEvaluation src u s.active.records[w] = s.active.records[w] := by
  have code : copiesWhere (fun r => failsOver src u r || failsBack src u r) s w = 0 := by
    simpa [switches] using not
  have none : (failsOver src u s.active.records[w] || failsBack src u s.active.records[w]) = false := by
    unfold copiesWhere at code
    dsimp only at code
    cases is : failsOver src u s.active.records[w] || failsBack src u s.active.records[w] with
    | false => rfl
    | true =>
      rw [is, Bool.toNat_true] at code
      omega
  obtain ⟨over_, back⟩ := Bool.or_eq_false_iff.1 none
  rw [afterEvaluation, over_, back]
  rfl

theorem frameStart_cadence_first {src : SourceId} {s : State} (moved : (framed src s).state ≠ s.cadence[src].state) :
    FrameEvaluated src s (openGates src (cadenceFrame src s)) := by
  rw [cadenceFrame_moved moved]
  obtain ⟨p, is⟩ := reported_eq src s
  have grows := reported_grows src s
  generalize reported src s = v at is grows ⊢
  have on := evaluateFailover_on (some src) true v
  generalize evaluateFailover (some src) true v = t at on ⊢
  obtain ⟨ra, rn, g, q, n, rest⟩ := on.rest
  have fixed := evaluateIndicators_grows t
  obtain ⟨ind, r, same⟩ : ∃ ind r, evaluateIndicators t = { t with indicators := ind, poster := r } := ⟨_, _, rfl⟩
  generalize evaluateIndicators t = x at fixed same ⊢
  have opens := openGates_grows src x
  obtain ⟨g', p', opened, gates, _⟩ := openGates_eq src x
  generalize openGates src x = u at opens opened ⊢
  have commit : x.commit = s.commit := by rw [same, rest, is]
  have fillCount : x.fillCount = s.fillCount := by rw [same, rest, is]
  have cadence : v.cadence = u.cadence := by rw [opened, same, rest]
  have active : v.active = s.active := by rw [is]
  have nexts : v.next = s.next := by rw [is]
  have xActive : x.active = t.active := by rw [same]
  have xGates : x.gates = t.gates := by rw [same]
  have uGates : u.gates = g' := by rw [opened]
  have uActive : u.active = t.active := by rw [opened, same]
  have uNext : u.next = t.next := by rw [opened, same]
  have tGates := gates_switched (u := u) on active nexts cadence.symm
  have vGates : v.gates = s.gates := by rw [is]
  have opensLast : ∀ w : WindowId, gateOpens x src w = gateOpens u src w := fun w => by rw [opened]; rfl
  refine ⟨⟨v, t, on, active, nexts, cadence, uActive, uNext, grows, fixed.then opens⟩, fun w not => ?_, fun w yes => ?_,
    fun flying w armed => ?_, by rw [← cadence, is], by rw [opened]; exact fillCount⟩
  · have record : x.active.records[w] = s.active.records[w] := by
      rw [xActive, active_evaluated on, dueActive, if_pos rfl, moved_due, active,
        ← afterEvaluation_congr src cadence.symm, active_unswitched not]
    have opensSame : gateOpens x src w = gateOpens s src w := by
      rw [gateOpens, gateOpens, record, commit, fillCount]
    rw [uGates, gates, opensSame, xGates, tGates, not, vGates]
    simp
  · rw [uGates, gates, xGates, tGates, yes, opensLast]
    by_cases opening : gateOpens u src w = true
    · exact .inr ⟨if_pos opening, opening⟩
    · exact .inl (if_neg opening)
  · rw [uGates, gates, not_gateOpens (by rw [commit]; exact flying), xGates, tGates, vGates]
    simp [armed]

theorem frameStart_gates_first {src : SourceId} {s : State} (moved : (framed src s).state ≠ s.cadence[src].state) :
    FrameEvaluated src s (cadenceFrame src (openGates src s)) := by
  have opens := openGates_grows src s
  obtain ⟨g, p, opened, gates, _⟩ := openGates_eq src s
  generalize openGates src s = x at opens opened ⊢
  have cadenceX : x.cadence = s.cadence := by rw [opened]
  have framedX : framed src x = framed src s := by rw [opened]; rfl
  have events : liveEvents src x = liveEvents src s := by rw [liveEvents, liveEvents, cadenceX, framedX]
  rw [cadenceFrame_moved (by rw [framedX, cadenceX]; exact moved)]
  obtain ⟨q, is⟩ := reported_eq src x
  have grows := reported_grows src x
  rw [events] at grows
  generalize reported src x = v at is grows ⊢
  have on := evaluateFailover_on (some src) true v
  generalize evaluateFailover (some src) true v = t at on ⊢
  obtain ⟨ra, rn, g', q', n, rest⟩ := on.rest
  have fixed := evaluateIndicators_grows t
  obtain ⟨ind, r, same⟩ : ∃ ind r, evaluateIndicators t = { t with indicators := ind, poster := r } := ⟨_, _, rfl⟩
  generalize evaluateIndicators t = u at fixed same ⊢
  have cadence : v.cadence = u.cadence := by rw [same, rest]
  have active : v.active = s.active := by rw [is, opened]
  have nexts : v.next = s.next := by rw [is, opened]
  have uGates : u.gates = t.gates := by rw [same]
  have vGates : v.gates = g := by rw [is, opened]
  have tGates := gates_switched (u := u) on active nexts cadence.symm
  refine ⟨⟨v, t, on, active, nexts, cadence, by rw [same], by rw [same], opens.trans grows, fixed⟩, fun w not => ?_,
    fun w yes => ?_, fun flying w armed => ?_, by rw [← cadence, is, cadenceX, framedX], by rw [same, rest, is, opened]⟩
  · rw [uGates, tGates, not, vGates, gates]
    rfl
  · rw [uGates, tGates, yes]
    exact .inl rfl
  · rw [uGates, tGates, vGates, gates, not_gateOpens flying]
    simp [armed]

/-- What a frame start does to the whole part. -/
structure FrameTaken (src : SourceId) (s u : State) : Prop where
  rest : MoveOnly { s with overrun := put s.overrun src false } u
  cadence : u.cadence = put s.cadence src (framed src s)
  fillCount : u.fillCount = s.fillCount
  steady : (framed src s).state = s.cadence[src].state → u.active = s.active ∧ u.next = s.next
    ∧ ∀ w : WindowId, u.gates[w] = if gateOpens s src w then .opened else s.gates[w]
  moved : (framed src s).state ≠ s.cadence[src].state → FrameEvaluated src s u

theorem frameStart_only (src : SourceId) (s : State) :
    MoveOnly { s with overrun := put s.overrun src false } (frameStart src s) :=
  inEitherOrder_only (cadenceFrame_only src) (openGates_only src) _

/-- A relation from a state to a frame start of it holds where it holds for both orders. -/
theorem frameStart_either {src : SourceId} {s : State} {R : State → Prop}
    (first : ∀ s', s' = { s with overrun := put s.overrun src false, choices := s.choices + 1 } →
      R (openGates src (cadenceFrame src s')))
    (second : ∀ s', s' = { s with overrun := put s.overrun src false, choices := s.choices + 1 } →
      R (cadenceFrame src (openGates src s'))) : R (frameStart src s) := by
  unfold frameStart inEitherOrder
  dsimp only
  split
  · exact first _ rfl
  · exact second _ rfl

theorem setCadence_eq (src : SourceId) (c : Cadence) (s : State) :
    ∃ p, setCadence src c s = { s with cadence := put s.cadence src c, poster := p } := ⟨_, rfl⟩

/-- The fields a frame start reads are those of the state in which its overrun flag is clear. -/
theorem frameEvaluated_of {src : SourceId} {s s' u : State} (is : ∃ o n, s' = { s with overrun := o, choices := n })
    (h : FrameEvaluated src s' u) : FrameEvaluated src s u := by
  obtain ⟨o, n, rfl⟩ := is
  obtain ⟨⟨v, t, on, active, next, cadence, uActive, uNext, grows, after⟩, others, switched, armed, moved, fills⟩ := h
  have tells : Hands (liveEvents src s) { s with overrun := o, choices := n } v := grows.hands
  have start : Hands [] s { s with overrun := o, choices := n } := .of_stays rfl rfl rfl rfl
  exact ⟨⟨v, t, on, active, next, cadence, uActive, uNext,
    ⟨grows.flags, start.quiet_trans tells⟩, after⟩, others, switched, armed, moved, fills⟩

theorem frameStart_evaluated {src : SourceId} {s : State} (moved : (framed src s).state ≠ s.cadence[src].state) :
    FrameEvaluated src s (frameStart src s) := by
  refine frameStart_either (R := FrameEvaluated src s) (fun s' is => ?_) fun s' is => ?_
  · exact frameEvaluated_of ⟨_, _, is⟩ (frameStart_cadence_first (by rw [is]; exact moved))
  · exact frameEvaluated_of ⟨_, _, is⟩ (frameStart_gates_first (by rw [is]; exact moved))

/-- A frame start that keeps the state only opens gates. -/
theorem frameStart_steady {src : SourceId} {s : State} (steady : (framed src s).state = s.cadence[src].state) :
    ∃ g p n, frameStart src s = { s with
        overrun := put s.overrun src false, cadence := put s.cadence src (framed src s), gates := g, poster := p, choices := n }
      ∧ ∀ w : WindowId, g[w] = if gateOpens s src w then .opened else s.gates[w] := by
  refine frameStart_either (R := fun u => ∃ g p n, u = { s with
        overrun := put s.overrun src false, cadence := put s.cadence src (framed src s), gates := g, poster := p, choices := n }
      ∧ ∀ w : WindowId, g[w] = if gateOpens s src w then .opened else s.gates[w]) (fun s' is => ?_) fun s' is => ?_
  · have steady' : (framed src s').state = s'.cadence[src].state := by rw [is]; exact steady
    rw [cadenceFrame_steady steady']
    obtain ⟨g, p, same, gates, _⟩ := openGates_eq src (setCadence src (framed src s') s')
    refine ⟨g, p, s.choices + 1, same.trans ?_, fun w => (gates w).trans ?_⟩ <;> subst is <;> rfl
  · obtain ⟨g, p, same, gates, _⟩ := openGates_eq src s'
    have steady' : (framed src (openGates src s')).state = (openGates src s').cadence[src].state := by
      rw [same, is]
      exact steady
    obtain ⟨q, last⟩ := setCadence_eq src (framed src (openGates src s')) (openGates src s')
    rw [cadenceFrame_steady steady', last, same]
    refine ⟨g, q, s.choices + 1, ?_, fun w => (gates w).trans ?_⟩
    · rw [is]
      rfl
    · rw [is]
      rfl

theorem frameStart_taken (src : SourceId) (s : State) : FrameTaken src s (frameStart src s) := by
  by_cases steady : (framed src s).state = s.cadence[src].state
  · obtain ⟨g, p, n, same, gates⟩ := frameStart_steady steady
    have only := frameStart_only src s
    rw [same] at only ⊢
    exact ⟨only, rfl, rfl, fun _ => ⟨rfl, rfl, gates⟩, fun moved => absurd steady moved⟩
  · have evaluated := frameStart_evaluated steady
    exact ⟨frameStart_only src s, evaluated.cadence, evaluated.fillCount, fun same => absurd same steady, fun _ => evaluated⟩

/-! ## The expansion that follows -/

theorem expandFrom_joins (s : State) (run : Run) (fuel : Nat) (place : Position) (before : List Record) :
    ∃ rs ending, expandFrom fuel run place (Traffic.queued s before) = (Traffic.queued s rs, ending) := by
  induction fuel generalizing place before with
  | zero => exact ⟨before, _, rfl⟩
  | succ fuel ih =>
    unfold expandFrom
    split
    · exact ⟨before, _, rfl⟩
    · next r p _ =>
      split
      · rw [Traffic.enqueue_queued]
        exact ih _ _
      · exact ⟨before, _, rfl⟩

theorem expandStretch_joins (run : Run) (place : Position) (s : State) :
    ∃ rs ending, expandStretch run place s = (Traffic.queued s rs, ending) := by
  have joins := expandFrom_joins s run (Config.shareLimit + 1) place []
  rwa [Traffic.queued_nil] at joins

/-- From `s` to `u` an aperture write of a source of this class has been expanded and answered, passed or held. -/
structure WriteTaken (cls : SourceClass) (s u : State) : Prop where
  rest : ∃ q p o h f w out, u = { s with
    queue := q, poster := p, overrun := o, holds := h, passFifo := f, passWait := w, ingestOut := out }
  events : ∃ es, es.length ≤ 1 ∧ (∀ e ∈ es, e.kind = 12) ∧ PosterGrows es s u
  overrun : cls = .stallable → u.overrun = s.overrun

theorem finishAperture_writeTaken (t : Txn) (src : SourceId) {cls : SourceClass} {s u : State} (h : WriteTaken cls s u) :
    WriteTaken cls s (finishAperture t src u) := by
  obtain ⟨⟨q, p, o, held, f, w, out, rest⟩, ⟨es, few, kinds, grows⟩, overrun⟩ := h
  unfold finishAperture
  split
  · refine ⟨⟨q, p, o, held, f, w, u.ingestOut ++ [responseTo t .done], by rw [rest]; rfl⟩, ⟨es, few, kinds, ?_⟩, overrun⟩
    exact grows.then ⟨List.Subset.refl _, .of_stays rfl rfl rfl rfl⟩
  · obtain ⟨f', w', entered⟩ : ∃ f' w', enterPass t u = { u with passFifo := f', passWait := w' } := by
      unfold enterPass
      split
      · exact ⟨_, _, rfl⟩
      · exact ⟨_, _, rfl⟩
    rw [entered]
    refine ⟨⟨q, p, o, held, f', w', out, by rw [rest]⟩, ⟨es, few, kinds, ?_⟩, overrun⟩
    exact grows.then ⟨List.Subset.refl _, .of_stays rfl rfl rfl rfl⟩

theorem expandNew_writeTaken (t : Txn) (run : Run) (s : State) : WriteTaken run.cls s (expandNew t run s) := by
  obtain ⟨rs, ending, stretch⟩ := expandStretch_joins run .first s
  have joined : PosterGrows [] s (Traffic.queued s rs) :=
    ⟨Indicators.flags_flaggedIf _ _ _, .of_stays rfl rfl rfl rfl⟩
  have queued : WriteTaken run.cls s (Traffic.queued s rs) :=
    ⟨⟨_, _, s.overrun, s.holds, s.passFifo, s.passWait, s.ingestOut, rfl⟩, ⟨[], Nat.zero_le 1, fun _ mem => absurd mem List.not_mem_nil, joined⟩,
      fun _ => rfl⟩
  unfold expandNew
  rw [stretch]
  cases ending with
  | complete => exact finishAperture_writeTaken t _ queued
  | refused r p =>
    dsimp only
    cases cls : run.cls with
    | live =>
      dsimp only
      refine finishAperture_writeTaken t _ ?_
      unfold liveOverrun
      split
      · rw [← cls]
        exact queued
      · refine ⟨⟨_, _, _, s.holds, s.passFifo, s.passWait, s.ingestOut, rfl⟩,
          ⟨[_], Nat.le_refl 1, fun e mem => ?_, joined.trans ((?_ : PosterGrows [] _ _).trans (postEvent_grows _ _))⟩,
          fun h => by cases h⟩
        · rw [List.mem_singleton.1 mem]
          rfl
        · exact ⟨List.Subset.refl _, .of_stays rfl rfl rfl rfl⟩
    | stallable =>
      refine ⟨⟨_, _, s.overrun, _, s.passFifo, s.passWait, s.ingestOut, rfl⟩,
        ⟨[], Nat.zero_le 1, fun _ mem => absurd mem List.not_mem_nil, ?_⟩, fun _ => rfl⟩
      exact joined.then ⟨List.Subset.refl _, .of_stays rfl rfl rfl rfl⟩

theorem expandNew_settled {t : Txn} {run : Run} {s : State} (settled : Settled s) :
    serve (expandNew t run s) = expandNew t run s := by
  obtain ⟨rs, ending, stretch⟩ := expandStretch_joins run .first s
  unfold expandNew
  rw [stretch]
  cases ending with
  | complete => exact Traffic.settled_finishAperture settled t _ rfl rfl rfl
  | refused r p =>
    dsimp only
    split
    · unfold liveOverrun
      split
      · exact Traffic.settled_finishAperture settled t _ rfl rfl rfl
      · exact Traffic.settled_finishAperture settled t _ rfl rfl rfl
    · exact serve_of_settled (Traffic.settled_held settled _ rfl rfl rfl)

/-- An enabled event that is handed over alone where the ring has room. -/
theorem single_handed {s v : State} {e : Event} (hands : Hands [e] s v) (enabled : eventEnabled s.shadow e.kind = true)
    (room : unread s ≠ 255) : ∃ r, v.poster.events = s.poster.events ++ [r] ∧ bare r = told s.wallTime e := by
  have below : unread s < 256 := BitVec.isLt _
  have new := hands.newEvents (by rw [List.length_singleton]; omega)
  have tells : toldOf s.shadow s.wallTime [e] = [told s.wallTime e] := by simp [toldOf, enabled]
  obtain ⟨_, _, rs, records⟩ := hands
  rw [newEvents_of records.events, tells] at new
  obtain ⟨r, rfl, same⟩ := List.map_eq_singleton_iff.1 new
  exact ⟨r, records.events, same⟩

/-- An event that is handed over first, before others. -/
theorem first_handed {s v u : State} {e : Event} {fs : List Event} (first : Hands [e] s v) (others : Hands fs v u)
    (enabled : eventEnabled s.shadow e.kind = true) (room : unread s ≠ 255) :
    ∃ r more, u.poster.events = s.poster.events ++ r :: more ∧ bare r = told s.wallTime e := by
  obtain ⟨r, events, tells⟩ := single_handed first enabled room
  obtain ⟨_, _, more, records⟩ := others
  exact ⟨r, more, by rw [records.events, events, List.append_assoc]; rfl, tells⟩

theorem liveEvents_aside (src : SourceId) (s : State) :
    (liveEvents src s).length ≤ 1 ∧ ∀ e ∈ liveEvents src s, e.kind = 7 := by
  unfold liveEvents
  split
  · exact ⟨Nat.le_refl 1, fun e mem => by rw [List.mem_singleton.1 mem]; rfl⟩
  · exact ⟨Nat.zero_le 1, fun e mem => absurd mem List.not_mem_nil⟩

/-- Settles O15. -/
theorem frameStartTaken : Obligations.FrameStartTaken := by
  intro s t src a arrives start
  have taken := frameStart_taken src s
  obtain ⟨⟨q, p, o, h, f, w, out, rest⟩, ⟨es, few, kinds, grows⟩, overrun⟩ :=
    expandNew_writeTaken t (decodeRun s.shadow src a t) (frameStart src s)
  have settled : Settled (frameStart src s) :=
    (readyInitiators_congr taken.rest.lines taken.rest.holds taken.rest.passWait).trans arrives.settled
  have same : exec (.apertureWrite t) s
      = .next (expandNew t (decodeRun s.shadow src a t) (frameStart src s)) := by
    show Host.Outcome.next (arrive t s) = _
    rw [Traffic.arrive_aperture arrives, takeAperture, if_pos start]
    exact congrArg Host.Outcome.next (expandNew_settled settled)
  generalize expandNew t (decodeRun s.shadow src a t) (frameStart src s) = u at rest grows overrun same
  generalize frameStart src s = x at taken rest grows overrun
  have cadence : u.cadence = put s.cadence src (framed src s) := by rw [rest]; exact taken.cadence
  have state : u.cadence[src] = framed src s := by rw [cadence, put_self]
  have gates : u.gates = x.gates := by rw [rest]
  have switched : ∀ w, switches src u s w = switches src x s w := fun w => by rw [rest]; rfl
  have opens : ∀ w, gateOpens u src w = gateOpens x src w := fun w => by rw [rest]; rfl
  refine ⟨u, same, cadence, ?_, fun steady => ?_, fun moved => ⟨?_, fun w not => ?_, fun w yes => ?_⟩,
    fun recovering live enabled room => ?_, fun stallable => ?_, fun flying w armed => ?_, fun steady w => ?_, ?_, ?_, ?_, ?_,
    ?_, ?_, ?_, ?_, ?_⟩
  · rw [state]
    exact frameMoves s.shadow src s.cadence[src]
  · rw [state] at steady
    obtain ⟨active, next, _⟩ := taken.steady steady
    rw [rest]
    exact ⟨active, next⟩
  · rw [state] at moved
    obtain ⟨v, y, on, active, nexts, sameCadence, uActive, uNext, before, after⟩ := (taken.moved moved).evaluated
    obtain ⟨one, seven⟩ := liveEvents_aside src s
    refine evaluated_of on active nexts (by rw [rest]; exact uActive) (by rw [rest]; exact uNext)
      (by rw [rest]; exact sameCadence.symm) (List.Subset.trans after.flags grows.flags) before.hands
      (after.hands.quiet_trans grows.hands) (by omega) fun e mem m => ?_
    rcases List.mem_append.1 mem with here | here
    · rw [seven e here]
      cases m <;> decide
    · rw [kinds e here]
      cases m <;> decide
  · rw [state] at moved
    rw [gates]
    exact (taken.moved moved).others w (switched w ▸ not)
  · rw [state] at moved
    rw [gates, opens]
    exact (taken.moved moved).switched w (switched w ▸ yes)
  · rw [state] at live
    have moved : (framed src s).state ≠ s.cadence[src].state := by rw [live, recovering]; decide
    obtain ⟨v, y, on, active, nexts, sameCadence, uActive, uNext, before, after⟩ := (taken.moved moved).evaluated
    obtain ⟨fs, hands, _⟩ := on.events
    have first := before.hands
    rw [liveEvents, if_pos recovering] at first
    obtain ⟨r, more, events, tells⟩ := first_handed first ((hands.trans after.hands).trans grows.hands) enabled room
    obtain ⟨kind, _, subject, _, _, extra⟩ := of_bare tells
    refine ⟨r, more, events, kind, subject, ?_⟩
    rw [state]
    exact extra
  · rw [overrun stallable, taken.rest.overrun]
  · rw [gates]
    by_cases steady : (framed src s).state = s.cadence[src].state
    · obtain ⟨_, _, each⟩ := taken.steady steady
      rw [each, not_gateOpens flying]
      exact armed
    · exact (taken.moved steady).armed flying w armed
  · obtain ⟨_, _, each⟩ := taken.steady steady
    rw [gates, each]
    by_cases opening : gateOpens s src w = true
    · rw [if_pos opening]
      exact (if_pos ((gateOpens_iff s src w).1 opening)).symm
    · rw [if_neg opening]
      exact (if_neg fun conditions => opening ((gateOpens_iff s src w).2 conditions)).symm
  all_goals rw [rest]
  · exact ⟨taken.rest.wallTime, taken.rest.ponrst, taken.rest.baseStrap, taken.rest.prioStrap, taken.rest.owners,
      taken.rest.tags, taken.rest.exhaustion, taken.rest.lastGranted, taken.rest.storeOut⟩
  · exact taken.rest.mode
  · exact taken.rest.geometry
  · exact taken.rest.apertures
  · exact taken.rest.sync
  · exact taken.rest.shadow
  · exact taken.rest.commit
  · exact taken.rest.selection
  · exact taken.fillCount

end Sys2Proof.Frames
/-! PROOFS of O47 and O48: the tick, and the sources that enter STALE. -/

namespace Sys2Proof.Frames

open Sys2Proof Sys2Proof.Machine Sys2Proof.Events Sys2Proof.Failover Sys2Proof.Fills

/-! ## The part of a rectangle on a panel -/

/-- A wall rectangle has a pixel at a pixel of a panel. -/
def RectHas (g : Geometry) (p : PanelId) (dx dy dw dh ox oy : Nat) : Prop :=
  dx ≤ panelLeft g p + ox ∧ panelLeft g p + ox < dx + dw ∧ dy ≤ panelTop g p + oy ∧ panelTop g p + oy < dy + dh

theorem cutToPanel_none_iff (g : Geometry) (p : PanelId) (dx dy dw dh : Nat) : cutToPanel g p dx dy dw dh = none
    ↔ ∀ ox oy, ox < g.panelWidth → oy < g.panelHeight → ¬ RectHas g p dx dy dw dh ox oy := by
  unfold cutToPanel RectHas
  dsimp only
  split
  · next some =>
    refine ⟨fun h => (nomatch h), fun h => ?_⟩
    refine absurd ?_ (h (max dx (panelLeft g p) - panelLeft g p) (max dy (panelTop g p) - panelTop g p) ?_ ?_) <;> omega
  · next none => exact ⟨fun _ ox oy _ _ => by omega, fun _ => rfl⟩

theorem cutToPanel_some {g : Geometry} {p : PanelId} {dx dy dw dh x y w h : Nat}
    (cut : cutToPanel g p dx dy dw dh = some (x, y, w, h)) : 1 ≤ w ∧ x + w ≤ g.panelWidth ∧ 1 ≤ h ∧ y + h ≤ g.panelHeight
      ∧ ∀ ox oy, ox < g.panelWidth → oy < g.panelHeight →
        (RectHas g p dx dy dw dh ox oy ↔ x ≤ ox ∧ ox < x + w ∧ y ≤ oy ∧ oy < y + h) := by
  unfold cutToPanel at cut
  dsimp only at cut
  split at cut
  · simp only [Option.some.injEq, Prod.mk.injEq] at cut
    unfold RectHas
    refine ⟨?_, ?_, ?_, ?_, fun ox oy _ _ => ?_⟩ <;> omega
  · cases cut

theorem inPlacement_iff (g : Geometry) (p : PanelId) (w : Window) (ox oy : Nat) :
    inPlacement g p w ox oy = true ↔ RectHas g p w.dx w.dy w.dw w.dh ox oy := by
  simp [inPlacement, covers, RectHas, and_assoc]

theorem cut_isSome_iff (g : Geometry) (p : PanelId) (w : Window) : (cutToPanel g p w.dx w.dy w.dw w.dh).isSome = true
    ↔ ∃ ox oy, ox < g.panelWidth ∧ oy < g.panelHeight ∧ inPlacement g p w ox oy = true := by
  have none := cutToPanel_none_iff g p w.dx w.dy w.dw w.dh
  rw [← Option.ne_none_iff_isSome, ne_eq, none]
  simp only [inPlacement_iff, Classical.not_forall, Classical.not_not, exists_prop]

/-! ## The BORDER entries of a stale source -/

theorem isGrid_gridPanels (g : Geometry) (p : PanelId) : p ∈ gridPanels g ↔ isGrid g p = true := by
  simp [gridPanels]

theorem pairwise_gridPanels (g : Geometry) : (gridPanels g).Pairwise (· < ·) :=
  (List.pairwise_lt_finRange 32).filter _

/-- The entries made are those that are due (R124). -/
theorem borderEntries_due (v : State) (src : SourceId) : BordersDue v src (borderEntries v src) := by
  refine ⟨?_, fun e => ?_⟩
  · rw [borderEntries, List.pairwise_flatMap]
    refine ⟨fun w _ => ?_, (List.pairwise_lt_finRange 64).imp fun {w w'} less x x_mem y y_mem => .inl ?_⟩
    · rw [List.pairwise_map]
      exact ((pairwise_gridPanels v.geometry).filter _).imp fun less => .inr ⟨rfl, less⟩
    · obtain ⟨_, _, rfl⟩ := List.mem_map.1 x_mem
      obtain ⟨_, _, rfl⟩ := List.mem_map.1 y_mem
      exact less
  · have unmarked : ∀ (w : WindowId) (p : PanelId), (!(v.marking.any fun e => e.window == w && e.panel == p)) = true
        ↔ ∀ x ∈ v.marking, ¬ (x.window = w ∧ x.panel = p) := fun w p => by
      simp
    simp only [borderEntries, List.mem_flatMap, List.mem_map, List.mem_filter, isGrid_gridPanels, Bool.and_eq_true, unmarked,
      markedOn, beq_iff_eq, cut_isSome_iff, List.mem_finRange, true_and]
    constructor
    · rintro ⟨w, p, ⟨grid, ⟨⟨shown, fed⟩, pixel⟩, fresh⟩, rfl⟩
      exact ⟨rfl, rfl, rfl, rfl, grid, shown, fed, pixel, fresh⟩
    · rintro ⟨source, rows, first, lines, grid, shown, fed, pixel, fresh⟩
      refine ⟨e.window, e.panel, ⟨grid, ⟨⟨shown, fed⟩, pixel⟩, fresh⟩, ?_⟩
      obtain ⟨panel, window, _, _, _, _⟩ := e
      simp_all

theorem layoutOf_congr {s t : State} (active : t.active = s.active) (next : t.next = s.next)
    (selection : t.selection = s.selection) (p : PanelId) : layoutOf t p = layoutOf s p := by
  rw [layoutOf, layoutOf, active, next, selection]

theorem borderEntries_congr {s t : State} (active : t.active = s.active) (next : t.next = s.next)
    (selection : t.selection = s.selection) (geometry : t.geometry = s.geometry) (marking : t.marking = s.marking)
    (src : SourceId) : borderEntries t src = borderEntries s src := by
  have layouts := layoutOf_congr active next selection
  simp only [borderEntries, markedOn, layouts, geometry, marking]

/-- The event of entries that find no room (R123). -/
def lostBorders (x : State) (src : SourceId) : List Event :=
  if 64 - x.marking.length < (borderEntries x src).length then
    [evFillLost .border src.val ((borderEntries x src).length - (64 - x.marking.length))]
  else []

theorem entryJoined_eq (c : ChannelId) (x : State) :
    ∃ c0 c1 p, entryJoined c x = { x with channel0 := c0, channel1 := c1, poster := p }
      ∧ PosterGrows [] x (entryJoined c x) := by
  have grows : PosterGrows [] x (entryJoined c x) := by
    refine ⟨(Indicators.entryJoined_kept c x).flags, .of_stays (entryJoined_only c x).shadow (entryJoined_only c x).wallTime ?_ ?_⟩
    all_goals
      unfold entryJoined moveChannel
      split
      · split <;> rfl
      · rfl
  unfold entryJoined moveChannel at grows ⊢
  split
  · split <;> exact ⟨_, _, _, rfl, by simp_all⟩
  · exact ⟨_, _, _, rfl, by simp_all⟩

theorem joinMarking_eq (es : List BorderEntry) (x : State) :
    ∃ c0 c1 p, joinMarking es x = { x with marking := x.marking ++ es, channel0 := c0, channel1 := c1, poster := p }
      ∧ PosterGrows [] x (joinMarking es x) := by
  cases es with
  | nil =>
    refine ⟨x.channel0, x.channel1, x.poster, ?_, .refl x⟩
    rw [List.append_nil]
    rfl
  | cons e es =>
    obtain ⟨c0, c1, p, same, grows⟩ := entryJoined_eq .one { x with marking := x.marking ++ e :: es }
    have start : PosterGrows [] x { x with marking := x.marking ++ e :: es } :=
      ⟨List.Subset.refl _, .of_stays rfl rfl rfl rfl⟩
    exact ⟨c0, c1, p, same, start.then grows⟩

/-- What the Fill Engine does when it is told that a source entered STALE (R124). -/
theorem markStale_eq (src : SourceId) (x : State) :
    ∃ c0 c1 p, markStale src x = { x with
        marking := x.marking ++ (borderEntries x src).take (64 - x.marking.length), channel0 := c0, channel1 := c1, poster := p }
      ∧ PosterGrows (lostBorders x src) x (markStale src x) := by
  obtain ⟨c0, c1, p, same, grows⟩ := joinMarking_eq ((borderEntries x src).take (64 - x.marking.length)) x
  by_cases lost : 64 - x.marking.length < (borderEntries x src).length
  · have posts : markStale src x = postEvent _ (joinMarking ((borderEntries x src).take (64 - x.marking.length)) x) := if_pos lost
    rw [lostBorders, if_pos lost, posts]
    generalize joinMarking _ x = y at same grows ⊢
    exact ⟨c0, c1, handedOver y.shadow y.wallTime _ y.poster, by rw [same]; rfl, grows.trans (postEvent_grows _ _)⟩
  · have quiet : markStale src x = joinMarking ((borderEntries x src).take (64 - x.marking.length)) x := if_neg lost
    rw [lostBorders, if_neg lost, quiet]
    exact ⟨c0, c1, p, same, grows⟩

theorem lostBorders_congr {s t : State} (active : t.active = s.active) (next : t.next = s.next)
    (selection : t.selection = s.selection) (geometry : t.geometry = s.geometry) (marking : t.marking = s.marking)
    (src : SourceId) : lostBorders t src = lostBorders s src := by
  rw [lostBorders, lostBorders, borderEntries_congr active next selection geometry marking, marking]

/-! ## The effects of stale entry -/

/-- The event of a stale entry, but of a source that was RECOVERING (R141). -/
def staleEvents (src : SourceId) (left : CadenceState) (z : State) : List Event :=
  if left = .recovering then []
  else [evSourceStale src left z.cadence[src].baseline z.cadence[src].elapsed]

/-- The state after SOURCE_STALE. -/
def staleReported (src : SourceId) (left : CadenceState) (z : State) : State :=
  if left = .recovering then z else postEvent (evSourceStale src left z.cadence[src].baseline z.cadence[src].elapsed) z

theorem staleReported_grows (src : SourceId) (left : CadenceState) (z : State) :
    PosterGrows (staleEvents src left z) z (staleReported src left z) := by
  unfold staleEvents staleReported
  split
  · exact .refl z
  · exact postEvent_grows _ z

theorem staleReported_eq (src : SourceId) (left : CadenceState) (z : State) :
    ∃ p, staleReported src left z = { z with poster := p } := by
  unfold staleReported
  split
  · exact ⟨z.poster, rfl⟩
  · exact ⟨_, rfl⟩

/-- From `z` to `u`, the effects of the entry of a source into STALE from the state `left` (R141). -/
structure StaleTaken (src : SourceId) (left : CadenceState) (z u : State) : Prop where
  cadence : u.cadence = z.cadence
  exposure : u.exposure = z.exposure
  fillCount : u.fillCount = z.fillCount
  gates : ∀ w : WindowId, u.gates[w] = if switches src u z w then .armed else z.gates[w]
  effects : ∃ y v t b before after, PosterGrows (staleEvents src left z) z y
    ∧ EvaluatedOn (some src) true (List.finRange 64) v t ∧ v.active = z.active ∧ v.next = z.next ∧ v.cadence = u.cadence
    ∧ u.active = t.active ∧ u.next = t.next ∧ PosterGrows before y v ∧ PosterGrows after t u
    ∧ (b = z ∨ b = { z with active := u.active, next := u.next }) ∧ before ++ after = lostBorders b src
    ∧ u.marking = z.marking ++ (borderEntries b src).take (64 - z.marking.length)

theorem stale_marks_first (src : SourceId) (left : CadenceState) (z : State) (n : Nat) :
    StaleTaken src left z (evaluateIndicators (evaluateFailover (some src) true
      (markStale src { staleReported src left z with choices := n }))) := by
  obtain ⟨p, is⟩ := staleReported_eq src left z
  have grows := staleReported_grows src left z
  generalize staleReported src left z = y at is grows ⊢
  have start := choices_grows n y
  obtain ⟨x, xIs⟩ : ∃ x, x = { y with choices := n } := ⟨_, rfl⟩
  rw [← xIs] at start ⊢
  obtain ⟨c0, c1, q, marked, marks⟩ := markStale_eq src x
  generalize markStale src x = v at marked marks ⊢
  have on := evaluateFailover_on (some src) true v
  generalize evaluateFailover (some src) true v = t at on ⊢
  obtain ⟨ra, rn, g, q', m, rest⟩ := on.rest
  have fixed := evaluateIndicators_grows t
  obtain ⟨ind, r, same⟩ : ∃ ind r, evaluateIndicators t = { t with indicators := ind, poster := r } := ⟨_, _, rfl⟩
  generalize evaluateIndicators t = u at fixed same ⊢
  have active : v.active = z.active := by rw [marked, xIs, is]
  have nexts : v.next = z.next := by rw [marked, xIs, is]
  have cadence : v.cadence = u.cadence := by rw [same, rest]
  have vGates : v.gates = z.gates := by rw [marked, xIs, is]
  have uGates : u.gates = t.gates := by rw [same]
  have marking : x.marking = z.marking := by rw [xIs, is]
  have entries : borderEntries x src = borderEntries z src := by rw [xIs, is]; rfl
  have lost : lostBorders x src = lostBorders z src := by rw [xIs, is]; rfl
  refine ⟨by rw [← cadence, marked, xIs, is], by rw [same, rest, marked, xIs, is], by rw [same, rest, marked, xIs, is],
    fun w => ?_, y, v, t, z, lostBorders z src, [], grows, on, active, nexts, cadence, by rw [same], by rw [same], ?_, fixed,
    .inl rfl, List.append_nil _, ?_⟩
  · rw [uGates, gates_switched on active nexts cadence.symm, vGates]
  · rw [← lost]
    exact start.trans marks
  · rw [same, rest, marked, marking, entries]

theorem stale_evaluates_first (src : SourceId) (left : CadenceState) (z : State) (n : Nat) :
    StaleTaken src left z (evaluateIndicators (markStale src (evaluateFailover (some src) true
      { staleReported src left z with choices := n }))) := by
  obtain ⟨p, is⟩ := staleReported_eq src left z
  have grows := staleReported_grows src left z
  generalize staleReported src left z = y at is grows ⊢
  have start := choices_grows n y
  obtain ⟨v, vIs⟩ : ∃ v, v = { y with choices := n } := ⟨_, rfl⟩
  rw [← vIs] at start ⊢
  have on := evaluateFailover_on (some src) true v
  generalize evaluateFailover (some src) true v = t at on ⊢
  obtain ⟨ra, rn, g, q', m, rest⟩ := on.rest
  obtain ⟨c0, c1, q, marked, marks⟩ := markStale_eq src t
  generalize markStale src t = x at marked marks ⊢
  have fixed := evaluateIndicators_grows x
  obtain ⟨ind, r, same⟩ : ∃ ind r, evaluateIndicators x = { x with indicators := ind, poster := r } := ⟨_, _, rfl⟩
  generalize evaluateIndicators x = u at fixed same ⊢
  have active : v.active = z.active := by rw [vIs, is]
  have nexts : v.next = z.next := by rw [vIs, is]
  have cadence : v.cadence = u.cadence := by rw [same, marked, rest]
  have vGates : v.gates = z.gates := by rw [vIs, is]
  have uGates : u.gates = t.gates := by rw [same, marked]
  have uActive : u.active = t.active := by rw [same, marked]
  have uNext : u.next = t.next := by rw [same, marked]
  have marking : t.marking = z.marking := by rw [rest, vIs, is]
  have selection : t.selection = z.selection := by rw [rest, vIs, is]
  have geometry : t.geometry = z.geometry := by rw [rest, vIs, is]
  have entries := borderEntries_congr (s := { z with active := u.active, next := u.next }) uActive.symm uNext.symm
    selection geometry marking src
  have lost := lostBorders_congr (s := { z with active := u.active, next := u.next }) uActive.symm uNext.symm
    selection geometry marking src
  refine ⟨by rw [← cadence, vIs, is], by rw [same, marked, rest, vIs, is], by rw [same, marked, rest, vIs, is],
    fun w => ?_, y, v, t, _, [], lostBorders t src, grows, on, active, nexts, cadence, uActive, uNext, start, marks.then fixed,
    .inr rfl, lost, ?_⟩
  · rw [uGates, gates_switched on active nexts cadence.symm, vGates]
  · rw [← entries, ← marking, same, marked]

/-- The effects of stale entry. -/
theorem staleEffects_taken (src : SourceId) (left : CadenceState) (z : State) :
    StaleTaken src left z (staleEffects src left z) := by
  have same : staleEffects src left z = evaluateIndicators
      (inEitherOrder (markStale src) (evaluateFailover (some src) true) (staleReported src left z)) := rfl
  rw [same]
  unfold inEitherOrder
  dsimp only
  split
  · exact stale_marks_first src left z _
  · exact stale_evaluates_first src left z _

/-! ## The tick -/

/-- The sources that a tick makes STALE. -/
def goesStale (s : State) (src : SourceId) : Bool := limitReached s.shadow src (ticked s.cadence[src])

/-- The records after a tick, before any source enters STALE. -/
def risen (s : State) : Vector Cadence 32 := Vector.ofFn fun src : SourceId => ticked s.cadence[src]

theorem risen_get (s : State) (src : SourceId) : (risen s)[src] = ticked s.cadence[src] := by
  simp [risen]

/-- The state in which the records are ticked and the sources whose limit is reached are STALE. -/
def staledState (s : State) : State :=
  ((List.finRange 32).filter (goesStale s)).foldl (fun s src => setCadence src (staled s.cadence[src]) s)
    { s with cadence := risen s }

theorem tickSources_with {s : State} {r : Vector Cadence 32} (is : r = Vector.ofFn fun src : Fin 32 => ticked s.cadence[src]) :
    tickSources s = ((List.finRange 32).filter fun src => limitReached s.shadow src r[src]).foldl
      (fun t src => staleEffects src r[src].state t)
      (((List.finRange 32).filter fun src => limitReached s.shadow src r[src]).foldl
        (fun s src => setCadence src (staled s.cadence[src]) s) { s with cadence := r }) := by
  subst is
  rfl

theorem tickSources_eq (s : State) : tickSources s
    = ((List.finRange 32).filter (goesStale s)).foldl (fun t src => staleEffects src (ticked s.cadence[src]).state t)
      (staledState s) := by
  have due : (fun src => limitReached s.shadow src (risen s)[src]) = goesStale s := funext fun src => by
    rw [goesStale, risen_get]
  have left : (fun t src => staleEffects src (risen s)[src].state t)
      = fun t src => staleEffects src (ticked s.cadence[src]).state t := funext fun t => funext fun src => by rw [risen_get]
  rw [tickSources_with (r := risen s) rfl, due, left, staledState]

theorem cadence_staled (l : List SourceId) (nodup : l.Nodup) (s : State) (q : SourceId) :
    (l.foldl (fun s src => setCadence src (staled s.cadence[src]) s) s).cadence[q]
      = if q ∈ l then staled s.cadence[q] else s.cadence[q] := by
  induction l generalizing s with
  | nil => rfl
  | cons first rest ih =>
    obtain ⟨fresh, nodup⟩ := List.nodup_cons.1 nodup
    have put : (setCadence first (staled s.cadence[first]) s).cadence[q]
        = if first = q then staled s.cadence[first] else s.cadence[q] := put_get s.cadence first q _
    rw [List.foldl_cons, ih nodup, put]
    by_cases here : first = q
    · subst here
      simp [fresh]
    · simp [here, Ne.symm here]

theorem staledState_cadence (s : State) (q : SourceId) : (staledState s).cadence[q]
    = if goesStale s q then staled (ticked s.cadence[q]) else ticked s.cadence[q] := by
  unfold staledState
  rw [cadence_staled _ ((List.nodup_finRange 32).filter _)]
  show (if _ then staled (risen s)[q] else (risen s)[q]) = _
  rw [risen_get]
  simp only [List.mem_filter, List.mem_finRange, true_and]

theorem staleEffects_cadence (left : SourceId → CadenceState) (l : List SourceId) (t : State) :
    (l.foldl (fun t src => staleEffects src (left src) t) t).cadence = t.cadence :=
  Machine.foldl_keeps (R := fun s t : State => t.cadence = s.cadence) (fun _ => rfl)
    (fun {_ _ _} h k => Eq.trans k h) _ (fun s src => (staleEffects_taken src (left src) s).cadence) l t

/-- The records after a tick (R137). -/
theorem tickSources_cadence (s : State) (q : SourceId) : (tickSources s).cadence[q]
    = if goesStale s q then staled (ticked s.cadence[q]) else ticked s.cadence[q] := by
  rw [tickSources_eq, staleEffects_cadence fun src => (ticked s.cadence[src]).state]
  exact staledState_cadence s q

theorem limitReached_iff (m : Shadow) (src : SourceId) (c : Cadence) : limitReached m src c = true
    ↔ ((c.state = .awaiting ∨ c.state = .learning) ∧ firstFrameLimit m src ≤ c.elapsed)
      ∨ ((c.state = .live ∨ c.state = .recovering) ∧ min 65535 (c.baseline + staleMargin m src) ≤ c.elapsed) := by
  unfold limitReached staleLimit
  have reaches : decide (min Config.cadenceTop (c.baseline + staleMargin m src) ≤ c.elapsed) = true
      ↔ min 65535 (c.baseline + staleMargin m src) ≤ c.elapsed := decide_eq_true_iff
  cases state : c.state with
  | disabled => simp
  | stale => simp
  | awaiting => simp
  | learning => simp
  | live => exact reaches.trans (by simp)
  | recovering => exact reaches.trans (by simp)

theorem ticked_eq {c : Cadence} (enabled : c.state ≠ .disabled) : ticked c = { c with elapsed := min 65535 (c.elapsed + 1) } :=
  if_neg enabled

theorem ticked_disabled {c : Cadence} (disabled : c.state = .disabled) : ticked c = c := if_pos disabled

theorem not_goesStale_of_disabled {s : State} {src : SourceId} (disabled : s.cadence[src].state = .disabled) :
    goesStale s src = false := by
  unfold goesStale
  rw [ticked_disabled disabled, limitReached, staleLimit, disabled]

/-- The test of a source's limit, on the record with its count raised. -/
theorem goesStale_raised (s : State) (src : SourceId) : goesStale s src
    = limitReached s.shadow src { s.cadence[src] with elapsed := min 65535 (s.cadence[src].elapsed + 1) } := by
  by_cases disabled : s.cadence[src].state = .disabled
  · rw [not_goesStale_of_disabled disabled, limitReached, staleLimit]
    dsimp only
    rw [disabled]
  · rw [goesStale, ticked_eq disabled]

theorem inService_tick {s : State} (service : InService s) : inService tick s = tick s := by
  have only : ∀ t, MoveOnly t (tickSources t) := tickSources_only
  apply StorePort.inService_leaves service
  all_goals
    unfold tick
    dsimp only
    split
  · exact (only _).lines
  · rfl
  · exact (only _).holds
  · rfl
  · exact (only _).passWait
  · rfl

/-- The state at the next tick, before the records are ticked. -/
def atNextTick (s : State) : State := { s with wallTime := nextTickTime s.wallTime }

theorem cadenceTick_setup {s : State} (service : InService s) (mode : s.mode = .setup) :
    exec .cadenceTick s = .next (atNextTick s) := by
  show Host.Outcome.next (inService tick s) = _
  rw [inService_tick service, tick]
  exact congrArg Host.Outcome.next (if_neg (by rw [mode]; decide))

theorem cadenceTick_run {s : State} (service : InService s) (mode : s.mode = .run) :
    exec .cadenceTick s = .next (tickSources (atNextTick s)) := by
  show Host.Outcome.next (inService tick s) = _
  rw [inService_tick service, tick]
  exact congrArg Host.Outcome.next (if_pos mode)

theorem tickSources_idle {s : State} (disabled : ∀ src : SourceId, s.cadence[src].state = .disabled) :
    tickSources s = s := by
  have none : (List.finRange 32).filter (goesStale s) = [] :=
    List.filter_eq_nil_iff.2 fun src _ => by simp [not_goesStale_of_disabled (disabled src)]
  have same : risen s = s.cadence := by
    ext i bound : 1
    have at_i := risen_get s ⟨i, bound⟩
    rw [ticked_disabled (disabled ⟨i, bound⟩)] at at_i
    exact at_i
  rw [tickSources_eq, staledState, none, same]
  rfl

/-- Settles O47. -/
theorem cadenceTickCounts : Obligations.CadenceTickCounts := by
  intro s service
  refine ⟨cadenceTick_setup service, fun mode => ⟨_, cadenceTick_run service mode, (tickSources_only _).wallTime, ?_,
    fun src c is => ?_, tickSources_idle (s := atNextTick s), (tickSources_only _).queue, (tickSources_only _).tags,
    (tickSources_only _).commit, (tickSources_only _).sync, (tickSources_only _).apertures, (tickSources_only _).storeOut,
    (tickSources_only _).ingestOut⟩⟩
  · rw [nextTickTime, BitVec.toNat_ofNat, Config.tickMicros]
    omega
  · have risesTo : (tickSources (atNextTick s)).cadence[src]
        = if goesStale s src then staled (ticked s.cadence[src]) else ticked s.cadence[src] := tickSources_cadence _ src
    rw [risesTo, goesStale_raised, ← is]
    split
    · next reached =>
      have enabled : s.cadence[src].state ≠ .disabled := by
        have := Steps.enabled_of_limitReached reached
        rw [is] at this
        exact this
      rw [if_neg enabled, ticked_eq enabled, ← is]
      rfl
    · next not =>
      split
      · next disabled => exact ticked_disabled disabled
      · next enabled => rw [ticked_eq enabled, is]

/-! ## A source that alone reaches its limit (O48) -/

theorem staleEvents_aside (src : SourceId) (left : CadenceState) (z : State) :
    (staleEvents src left z).length ≤ 1 ∧ ∀ e ∈ staleEvents src left z, e.kind = 6 := by
  unfold staleEvents
  split
  · exact ⟨Nat.zero_le 1, fun e mem => absurd mem List.not_mem_nil⟩
  · exact ⟨Nat.le_refl 1, fun e mem => by rw [List.mem_singleton.1 mem]; rfl⟩

theorem lostBorders_aside (b : State) (src : SourceId) :
    (lostBorders b src).length ≤ 1 ∧ ∀ e ∈ lostBorders b src, e.kind = 17 := by
  unfold lostBorders
  split
  · exact ⟨Nat.le_refl 1, fun e mem => by rw [List.mem_singleton.1 mem]; rfl⟩
  · exact ⟨Nat.zero_le 1, fun e mem => absurd mem List.not_mem_nil⟩

/-- All the events of a stale entry: at most 130, and SOURCE_STALE only where the source was not RECOVERING. -/
theorem StaleTaken.events {src : SourceId} {left : CadenceState} {z u : State} (h : StaleTaken src left z u) :
    ∃ all b, Hands all z u ∧ all.length ≤ 130 ∧ (∀ e ∈ all, byteNat e.kind = 6 → left ≠ .recovering)
      ∧ (∀ e ∈ lostBorders b src, e ∈ all) ∧ (b = z ∨ b = { z with active := u.active, next := u.next })
      ∧ u.marking = z.marking ++ (borderEntries b src).take (64 - z.marking.length) := by
  obtain ⟨y, v, t, b, before, after, reports, on, _, _, _, _, _, grows, grows', which, lost, marking⟩ := h.effects
  obtain ⟨es, hands, told⟩ := on.events
  have each := fun w => told w (List.mem_finRange w)
  have long := flatMap_length_le (fun w => (each w).few) (List.finRange 64)
  rw [List.length_finRange] at long
  obtain ⟨one, six⟩ := staleEvents_aside src left z
  obtain ⟨one', seventeen⟩ := lostBorders_aside b src
  have both : before.length + after.length ≤ 1 := by rw [← List.length_append, lost]; exact one'
  refine ⟨staleEvents src left z ++ (before ++ ((List.finRange 64).flatMap es ++ after)), b,
    reports.hands.trans (grows.hands.trans (hands.trans grows'.hands)), ?_, fun e mem kind => ?_, fun e mem => ?_, which, marking⟩
  · simp only [List.length_append]
    omega
  · have lostKind : e ∈ before ++ after → byteNat e.kind = 17 := fun here => by
      rw [seventeen e (lost ▸ here)]
      rfl
    simp only [List.mem_append] at mem lostKind
    rcases mem with mem | mem | mem | mem
    · rintro rfl
      simp [staleEvents] at mem
    · rw [lostKind (.inl mem)] at kind
      exact absurd kind (by decide)
    · obtain ⟨w, _, here⟩ := List.mem_flatMap.1 mem
      obtain ⟨m, is⟩ := (each w).kinds e here
      rw [is] at kind
      cases m <;> exact absurd kind (by decide)
    · rw [lostKind (.inr mem)] at kind
      exact absurd kind (by decide)
  · rw [← lost] at mem
    simp only [List.mem_append] at mem ⊢
    rcases mem with mem | mem
    · exact .inr (.inl mem)
    · exact .inr (.inr (.inr mem))

theorem StaleTaken.flags {src : SourceId} {left : CadenceState} {z u : State} (h : StaleTaken src left z u) :
    z.poster.flags ⊆ u.poster.flags := by
  obtain ⟨y, v, t, b, before, after, reports, on, _, _, _, _, _, grows, grows', _⟩ := h.effects
  exact List.Subset.trans (List.Subset.trans reports.flags grows.flags) (List.Subset.trans on.flags grows'.flags)

/-- The evaluation among the effects of a stale entry, told from a state before it with the same layouts. -/
theorem evaluated_from {src : SourceId} {left : CadenceState} {s z u : State} (start : Hands [] s z)
    (active₀ : z.active = s.active) (next₀ : z.next = s.next) (h : StaleTaken src left z u) : Evaluated src s u := by
  obtain ⟨y, v, t, b, before, after, reports, on, active, nexts, cadence, uActive, uNext, grows, grows', _, lost, _⟩ := h.effects
  obtain ⟨one, six⟩ := staleEvents_aside src left z
  obtain ⟨one', seventeen⟩ := lostBorders_aside b src
  have both : before.length + after.length ≤ 1 := by rw [← List.length_append, lost]; exact one'
  refine evaluated_of on (active.trans active₀) (nexts.trans next₀) uActive uNext cadence.symm grows'.flags
    (start.quiet_trans (reports.hands.trans grows.hands)) grows'.hands
    (by rw [List.length_append]; omega) fun e mem m => ?_
  have kind : e.kind = 6 ∨ e.kind = 17 := by
    simp only [List.mem_append, or_assoc] at mem
    rcases mem with mem | mem | mem
    · exact .inl (six e mem)
    · exact .inr (seventeen e (lost ▸ List.mem_append_left _ mem))
    · exact .inr (seventeen e (lost ▸ List.mem_append_right _ mem))
  rcases kind with kind | kind <;> rw [kind] <;> cases m <;> decide

theorem only_goesStale {s : State} {src : SourceId} (stale : goesStale s src = true)
    (others : ∀ q, q ≠ src → goesStale s q = false) : (List.finRange 32).filter (goesStale s) = [src] := by
  have same : goesStale s = fun q => q == src := funext fun q => by
    by_cases here : q = src
    · subst here
      rw [stale, beq_self_eq_true]
    · rw [others q here, beq_false_of_ne here]
  rw [same, List.filter_beq, (List.nodup_finRange 32).count, if_pos (List.mem_finRange src)]
  rfl

theorem ticked_state (c : Cadence) : (ticked c).state = c.state := by
  unfold ticked
  split <;> rfl

theorem state_of_limitReached {m : Shadow} {src : SourceId} {c : Cadence} (reached : limitReached m src c = true) :
    c.state ≠ .stale := fun stale => by
  simp [limitReached, staleLimit, stale] at reached

/-- The state in which one source has entered STALE, before its effects. -/
theorem staledState_single {s : State} {src : SourceId} (stale : goesStale s src = true)
    (others : ∀ q, q ≠ src → goesStale s q = false) :
    ∃ c p, staledState s = { s with cadence := c, poster := p } ∧ PosterGrows [] s (staledState s) ∧ .source src ∈ p.flags := by
  have same : staledState s = setCadence src (staled (risen s)[src]) { s with cadence := risen s } := by
    rw [staledState, only_goesStale stale others]
    rfl
  have differs : (risen s)[src].state ≠ .stale := by
    rw [risen_get]
    exact state_of_limitReached stale
  have changed : ((risen s)[src].state != (staled (risen s)[src]).state
      || (risen s)[src].baseline != (staled (risen s)[src]).baseline) = true := by
    have : (risen s)[src].state != (staled (risen s)[src]).state := bne_iff_ne.2 differs
    rw [this]
    rfl
  have start : PosterGrows [] s { s with cadence := risen s } := ⟨List.Subset.refl _, .of_stays rfl rfl rfl rfl⟩
  rw [same]
  exact ⟨_, _, rfl, start.then (setCadence_grows src _ _), mem_flaggedIf _ _ changed⟩

/-- The entries made for a stale source, told from the layouts of either state that R141 leaves open. -/
theorem bordersMade_of {src : SourceId} {s z u b : State}
    (is : ∃ time c p, z = { s with wallTime := time, cadence := c, poster := p })
    (which : b = z ∨ b = { z with active := u.active, next := u.next })
    (marking : u.marking = z.marking ++ (borderEntries b src).take (64 - z.marking.length))
    (reports : eventEnabled s.shadow 17 = true → unread s ≤ 125 → ∀ e ∈ lostBorders b src,
      ∃ r ∈ newEvents s u, ∃ now, bare r = told now e) : BordersMade src s u := by
  obtain ⟨time, c, p, rfl⟩ := is
  obtain ⟨v, vIs, same⟩ : ∃ v, (v = s ∨ v = { s with active := u.active, next := u.next })
      ∧ borderEntries b src = borderEntries v src := by
    rcases which with rfl | rfl
    · exact ⟨s, .inl rfl, borderEntries_congr (s := s) rfl rfl rfl rfl rfl src⟩
    · exact ⟨_, .inr rfl, borderEntries_congr (s := { s with active := u.active, next := u.next }) rfl rfl rfl rfl rfl src⟩
  have bMarking : b.marking = s.marking := by rcases which with rfl | rfl <;> rfl
  rw [same] at marking
  refine ⟨v, borderEntries v src, vIs, borderEntries_due v src, marking, fun long within enabled room => ?_⟩
  have lost : lostBorders b src = [evFillLost .border src.val ((borderEntries v src).length - (64 - s.marking.length))] := by
    rw [lostBorders, same, bMarking, if_pos (by omega)]
  obtain ⟨r, mem, now, tells⟩ := reports enabled room _ (lost ▸ List.mem_singleton_self _)
  obtain ⟨kind, detail, subject, _, _, extra⟩ := of_bare tells
  refine ⟨r, mem, kind, detail, subject, extra.trans (congrArg wordNat ?_)⟩
  omega

theorem staleLimit_ticks {s : State} {src : SourceId} (service : InService s) (mode : s.mode = .run)
    (stale : goesStale s src = true) : exec (.staleLimitExpiry src) s = exec .cadenceTick s := by
  have due : staleDue s src = true := by
    unfold staleDue
    rw [Bool.and_eq_true, beq_iff_eq]
    exact ⟨mode, stale⟩
  have ticks : (if staleDue s src then tick s else s) = tick s := if_pos due
  show Host.Outcome.next (inService (fun s => if staleDue s src then tick s else s) s) = .next (inService tick s)
  rw [StorePort.inService_serves service, StorePort.inService_serves service, ticks]

theorem staleLimit_idle {s : State} {src : SourceId} (service : InService s)
    (notDue : ¬ (s.mode = .run ∧ goesStale s src = true)) : exec (.staleLimitExpiry src) s = .next s := by
  have idle : staleDue s src = false := by
    refine Bool.eq_false_iff.2 fun due => notDue ?_
    unfold staleDue at due
    rw [Bool.and_eq_true, beq_iff_eq] at due
    exact due
  have stays : (if staleDue s src then tick s else s) = s := by rw [idle]; rfl
  show Host.Outcome.next (inService (fun s => if staleDue s src then tick s else s) s) = _
  rw [StorePort.inService_leaves service] <;> rw [stays]

/-- The tick at which a source alone reaches its limit: its stale entry from the state that it leaves. -/
theorem tickSources_single {s : State} {src : SourceId} (stale : goesStale s src = true)
    (others : ∀ q, q ≠ src → goesStale s q = false) :
    tickSources s = staleEffects src s.cadence[src].state (staledState s) := by
  rw [tickSources_eq, only_goesStale stale others, List.foldl_cons, List.foldl_nil, ticked_state]

/-- Settles O48. -/
theorem staleLimitEntersStale : Obligations.StaleLimitEntersStale := by
  intro s src raised service raisedIs
  have raisedOf : ∀ q, raised q = { s.cadence[q] with elapsed := min 65535 (s.cadence[q].elapsed + 1) } := fun q => by
    rw [raisedIs]
  have reaches : ∀ q, limitReached s.shadow q (raised q) = goesStale s q := fun q => by rw [raisedOf, goesStale_raised]
  simp only [reaches]
  refine ⟨limitReached_iff s.shadow src, staleLimit_idle service,
    fun mode stale => ⟨staleLimit_ticks service mode stale, fun others => ?_⟩⟩
  have stale' : goesStale (atNextTick s) src = true := stale
  have others' : ∀ q, q ≠ src → goesStale (atNextTick s) q = false := others
  have same : exec (.staleLimitExpiry src) s
      = .next (staleEffects src s.cadence[src].state (staledState (atNextTick s))) := by
    rw [staleLimit_ticks service mode stale, cadenceTick_run service mode, tickSources_single stale' others']
    rfl
  have enabled : s.cadence[src].state ≠ .disabled := fun disabled => by
    rw [not_goesStale_of_disabled disabled] at stale
    cases stale
  have record := staledState_cadence (atNextTick s)
  obtain ⟨c, p, zIs, grows, flagged⟩ := staledState_single stale' others'
  generalize staledState (atNextTick s) = z at zIs grows record same
  have taken := staleEffects_taken src s.cadence[src].state z
  have only := staleEffects_only src s.cadence[src].state z
  generalize staleEffects src s.cadence[src].state z = u at taken only same
  have zPoster : z.poster = p := by rw [zIs]
  have zSrc : z.cadence[src] = { raised src with state := .stale, goodCount := 0 } := by
    rw [record, if_pos stale', raisedOf]
    show staled (ticked s.cadence[src]) = _
    rw [ticked_eq enabled]
    rfl
  obtain ⟨all, b, hands, few, six, lost, which, marking⟩ := taken.events
  have zShadow : z.shadow = s.shadow := by rw [zIs]; rfl
  have fromStart : Hands all (atNextTick s) u := grows.hands.quiet_trans hands
  refine ⟨u, same, ?_, by rw [taken.cadence, zSrc], fun q other => ?_, taken.flags (zPoster ▸ flagged), fun steady on room => ?_,
    fun recovering e mem kind => ?_, fun w => ?_, ?_, ?_, ?_, ?_, ?_, ?_, ?_, ?_, ?_, ?_, ?_⟩
  · rw [only.wallTime, zIs]
    rfl
  · rw [taken.cadence, record, others' q other, raisedOf]
    show ticked s.cadence[q] = _
    split
    · next disabled => exact ticked_disabled disabled
    · next not => exact ticked_eq not
  · obtain ⟨y, v, t, b', before, after, reports, on', _, _, _, _, _, grows', grows'', _⟩ := taken.effects
    obtain ⟨es, between, _⟩ := on'.events
    have first : Hands (staleEvents src s.cadence[src].state z) (atNextTick s) y := grows.hands.quiet_trans reports.hands
    rw [staleEvents, if_neg steady] at first
    obtain ⟨r, more, events, tells⟩ := first_handed first ((grows'.hands.trans between).trans grows''.hands) on room
    obtain ⟨kind, detail, subject, _, time, extra⟩ := of_bare tells
    refine ⟨r, more, events, kind, subject, detail, time, extra.trans ?_⟩
    rw [evSourceStale, zSrc, raisedOf]
  · obtain ⟨x, x_mem, _, tells⟩ := fromStart.of_new (r := e) mem
    exact six x x_mem ((of_bare tells).1.symm.trans kind) recovering
  · rw [taken.gates, zIs]
    rfl
  · obtain ⟨active, next, epoch, image, failovers, advices, failbacks⟩ := evaluated_from grows.hands (by rw [zIs])
      (by rw [zIs]) taken
    exact ⟨active, next, epoch, image, failovers, advices, failbacks⟩
  · refine bordersMade_of ⟨_, c, p, zIs⟩ which marking fun on room x mem => ?_
    have length := few
    have kind := (lostBorders_aside b src).2 x mem
    obtain ⟨r, r_mem, tells⟩ := fromStart.new_of (by show unread s + _ ≤ _; omega) (lost x mem) (kind ▸ on)
    exact ⟨r, r_mem, _, tells⟩
  · rw [only.queue, zIs]
    rfl
  · rw [only.tags, zIs]
    rfl
  · rw [only.commit, zIs]
    rfl
  · rw [taken.exposure, zIs]
    rfl
  · rw [taken.fillCount, zIs]
    rfl
  · rw [only.apertures, zIs]
    rfl
  · rw [only.sync, zIs]
    rfl
  · rw [only.storeOut, zIs]
    rfl
  · rw [only.ingestOut, zIs]
    rfl

end Sys2Proof.Frames
/-! PROOFS of O20, O21 and O32: enabling and disabling a source, and RELEASE_FAILOVER. -/

namespace Sys2Proof.Sources

open Sys2Proof Sys2Proof.Machine Sys2Proof.Events Sys2Proof.Failover Sys2Proof.Frames Sys2Proof.ControlWrites

/-! ## The evaluations after a change of a cadence state -/

theorem armGates_eq (ws : List WindowId) (s : State) : ∃ g p, armGates ws s = { s with gates := g, poster := p }
    ∧ (∀ w : WindowId, g[w] = if w ∈ ws then .armed else s.gates[w]) ∧ PosterGrows [] s (armGates ws s) := by
  induction ws generalizing s with
  | nil => exact ⟨s.gates, s.poster, rfl, fun w => by simp, .refl s⟩
  | cons v ws ih =>
    obtain ⟨g, p, same, gates, grows⟩ := ih (armGate v s)
    have first : PosterGrows [] s (armGate v s) := ⟨Indicators.flags_flaggedIf _ _ _, .of_stays rfl rfl rfl rfl⟩
    refine ⟨g, p, same, fun w => ?_, first.then grows⟩
    have put : (armGate v s).gates[w] = if v = w then .armed else s.gates[w] := put_get s.gates v w .armed
    rw [gates, put]
    by_cases here : v = w
    · simp [here]
    · simp [here, Ne.symm here]

/-- What the evaluations after a change of a source's cadence state leave alone, and what they can do to a gate. -/
structure MovedBy (s u : State) : Prop where
  cadence : u.cadence = s.cadence
  exposure : u.exposure = s.exposure
  marking : u.marking = s.marking
  fillCount : u.fillCount = s.fillCount
  armed : ∀ w : WindowId, s.gates[w] = .armed → u.gates[w] = .armed
  flags : s.poster.flags ⊆ u.poster.flags
  only : MoveOnly s u

theorem cadenceMoved_movedBy (src : SourceId) (s : State) : MovedBy s (cadenceMoved src s) := by
  have on := evaluateFailover_on (some src) true s
  have only := cadenceMoved_only src s
  unfold cadenceMoved at only ⊢
  generalize evaluateFailover (some src) true s = t at on only ⊢
  obtain ⟨ra, rn, g, p, n, rest⟩ := on.rest
  have grows := evaluateIndicators_grows t
  obtain ⟨ind, q, same⟩ : ∃ ind q, evaluateIndicators t = { t with indicators := ind, poster := q } := ⟨_, _, rfl⟩
  generalize evaluateIndicators t = u at grows same only ⊢
  refine ⟨by rw [same, rest], by rw [same, rest], by rw [same, rest], by rw [same, rest], fun w armed => ?_,
    List.Subset.trans on.flags grows.flags, only⟩
  have gates : u.gates = t.gates := by rw [same]
  rw [gates, gates_evaluated on, armed, ite_self]

/-! ## Enable and disable -/

/-- What an accepted enable does. -/
structure Enabled (src : SourceId) (v u : State) : Prop where
  only : MoveOnly { v with apertures := put v.apertures src (some (shadowAperture v.shadow src)) } u
  cadence : u.cadence = put v.cadence src (.zeroed .awaiting)
  fed : ∀ w ∈ windowsFedBy v src, u.gates[w] = .armed
  armed : ∀ w : WindowId, v.gates[w] = .armed → u.gates[w] = .armed
  flagged : PostItem.source src ∈ u.poster.flags
  exposure : u.exposure = v.exposure
  marking : u.marking = v.marking
  fillCount : u.fillCount = v.fillCount

theorem setAperture_flagged (src : SourceId) (a : Option Aperture) (s : State) :
    ∃ p, setAperture src a s = { s with apertures := put s.apertures src a, poster := p } ∧ PostItem.source src ∈ p.flags :=
  ⟨_, rfl, mem_flaggedIf _ _ rfl⟩

theorem acceptEnable_enabled (src : SourceId) (v : State) : Enabled src v (acceptEnable src v) := by
  obtain ⟨p, apertures, flagged⟩ := setAperture_flagged src (some (shadowAperture v.shadow src)) v
  obtain ⟨q, cadences⟩ := setCadence_eq src (.zeroed .awaiting) (setAperture src (some (shadowAperture v.shadow src)) v)
  have more := (setCadence_grows src (.zeroed .awaiting) (setAperture src (some (shadowAperture v.shadow src)) v)).flags
  have only := setCadence_only src (.zeroed .awaiting) (setAperture src (some (shadowAperture v.shadow src)) v)
  have same : acceptEnable src v = cadenceMoved src (armGates
    (windowsFedBy (setCadence src (.zeroed .awaiting) (setAperture src (some (shadowAperture v.shadow src)) v)) src)
    (setCadence src (.zeroed .awaiting) (setAperture src (some (shadowAperture v.shadow src)) v))) := rfl
  rw [same]
  generalize setCadence src (.zeroed .awaiting) (setAperture src _ v) = x at cadences more only ⊢
  rw [apertures] at cadences more only
  have fed : windowsFedBy x src = windowsFedBy v src := by rw [cadences]; rfl
  obtain ⟨g, r, gated, gates, grows⟩ := armGates_eq (windowsFedBy x src) x
  have gatesOnly := armGates_only (windowsFedBy x src) x
  generalize armGates (windowsFedBy x src) x = y at gated grows gatesOnly ⊢
  have moved := cadenceMoved_movedBy src y
  generalize cadenceMoved src y = u at moved ⊢
  have yGates : y.gates = g := by rw [gated]
  have xGates : x.gates = v.gates := by rw [cadences]
  refine ⟨?_, ?_, fun w mem => moved.armed w ?_, fun w armed => moved.armed w ?_, moved.flags (grows.flags (more flagged)),
    ?_, ?_, ?_⟩
  · have start : MoveOnly { v with apertures := put v.apertures src (some (shadowAperture v.shadow src)) }
        { v with apertures := put v.apertures src (some (shadowAperture v.shadow src)), poster := p } := by constructor <;> rfl
    exact ((start.trans only).trans gatesOnly).trans moved.only
  · rw [moved.cadence, gated, cadences]
  · rw [yGates, gates, if_pos (fed ▸ mem)]
  · rw [yGates, gates, xGates, armed, ite_self]
  · rw [moved.exposure, gated, cadences]
  · rw [moved.marking, gated, cadences]
  · rw [moved.fillCount, gated, cadences]

theorem mem_windowsFedBy (s : State) (src : SourceId) (w : WindowId) : w ∈ windowsFedBy s src
    ↔ (s.active.records[w].window.state ≠ .unused ∧ s.active.records[w].effective = src.val)
      ∨ ∃ l, s.next = some l ∧ l.records[w].window.state ≠ .unused ∧ l.records[w].effective = src.val := by
  unfold windowsFedBy
  cases s.next with
  | none => simp
  | some l => simp

/-- What a disable does. -/
structure Disabled (src : SourceId) (v u : State) : Prop where
  only : MoveOnly { v with apertures := put v.apertures src none, overrun := put v.overrun src false } u
  cadence : u.cadence = put v.cadence src (.zeroed .disabled)
  flagged : PostItem.source src ∈ u.poster.flags
  exposure : u.exposure = v.exposure
  marking : u.marking = v.marking
  fillCount : u.fillCount = v.fillCount

theorem disableSource_disabled (src : SourceId) (v : State) : Disabled src v (disableSource src v) := by
  obtain ⟨x, xIs⟩ : ∃ x, x = { v with overrun := put v.overrun src false } := ⟨_, rfl⟩
  have same : disableSource src v = cadenceMoved src (setCadence src (.zeroed .disabled) (setAperture src none x)) := by
    rw [xIs]
    rfl
  obtain ⟨p, apertures, flagged⟩ := setAperture_flagged src none x
  obtain ⟨q, cadences⟩ := setCadence_eq src (.zeroed .disabled) (setAperture src none x)
  have more := (setCadence_grows src (.zeroed .disabled) (setAperture src none x)).flags
  have only := setCadence_only src (.zeroed .disabled) (setAperture src none x)
  rw [same]
  generalize setCadence src (.zeroed .disabled) (setAperture src none x) = y at cadences more only ⊢
  rw [apertures] at cadences more only
  have moved := cadenceMoved_movedBy src y
  generalize cadenceMoved src y = u at moved ⊢
  refine ⟨?_, ?_, moved.flags (more flagged), ?_, ?_, ?_⟩
  · have start : MoveOnly { v with apertures := put v.apertures src none, overrun := put v.overrun src false }
        { x with apertures := put x.apertures src none, poster := p } := by
      rw [xIs]
      constructor <;> rfl
    exact (start.trans only).trans moved.only
  · rw [moved.cadence, cadences, xIs]
  · rw [moved.exposure, cadences, xIs]
  · rw [moved.marking, cadences, xIs]
  · rw [moved.fillCount, cadences, xIs]

/-! ## The enable word -/

theorem enableWord_bit (enable live copy : Bool) : (enableWord enable live copy).getLsbD 0 = enable := by
  cases enable <;> cases live <;> cases copy <;> decide

/-- The shadow once the words of an enable request or a disable are written. -/
def enableWritten (s : State) (src : SourceId) (g : Option ApertureWords) (enable live copy : Bool) : State :=
  match g with
  | none => written s (enableOffset src) [enableWord enable live copy]
  | some g => written s (sourceOffset src) (geometryWords g ++ [enableWord enable live copy])

variable {s : State} {f : Sender} {src : SourceId} {g : Option ApertureWords} {enable live copy : Bool}

theorem enableWritten_some (g : ApertureWords) : enableWritten s src (some g) enable live copy
    = written s (sourceOffset src) (geometryWords g ++ [enableWord enable live copy]) := rfl

theorem written_shadow (off : Nat) (ws : List Word) :
    (written s off ws).shadow = shadowWriteBytes s.shadow off (bytesOf ws) := rfl

theorem enableBit_written (writes : ConsoleWrites s f) :
    enableBit (enableWritten s src g enable live copy).shadow src = enable := by
  have word : shadowWord (enableWritten s src g enable live copy).shadow (sourceOffset src + 0x14)
      = enableWord enable live copy := by
    cases g with
    | none => exact shadowWord_of_one writes (enableOffset src) _
    | some g =>
      have within : 5 < (geometryWords g ++ [enableWord enable live copy]).length := Nat.lt_of_sub_pos Nat.one_pos
      have read := shadowWord_written (m := s.shadow) (off := sourceOffset src) writes.shadow within
      rw [show 4 * 5 = 0x14 by decide] at read
      rw [enableWritten_some, written_shadow, read]
      rfl
  rw [enableBit, word, enableWord_bit]

/-- The geometry words of a source have no effect beside the shadow's. -/
theorem effects_geometry (i : Initiator) (m : Shadow) (g : ApertureWords) (e : Word) (u : State) :
    effectsPhase i m (wordsAt (sourceOffset src) (geometryWords g ++ [e])) u = enableWordWritten i src u := by
  have quiet : ∀ (k r : Nat) (v : Word) (t : State), r < 64 → r ≠ 0x14 → r ≠ 0x24 →
      wordEffect i m ⟨k, sourceOffset src + r, v⟩ t = t := by
    intro k r v t small notEnable notThreshold
    rw [wordEffect_source i m src ⟨k, sourceOffset src + r, v⟩ small rfl]
    unfold sourceEffect
    split
    · exact absurd rfl notEnable
    · exact absurd rfl notThreshold
    · rfl
  obtain ⟨a, b, c, d, h, words⟩ : ∃ a b c d h, geometryWords g = [a, b, c, d, h] := ⟨_, _, _, _, _, rfl⟩
  rw [words]
  show wordEffect i m ⟨5, sourceOffset src + 20, e⟩ (wordEffect i m ⟨4, sourceOffset src + 16, h⟩
    (wordEffect i m ⟨3, sourceOffset src + 12, d⟩ (wordEffect i m ⟨2, sourceOffset src + 8, c⟩
      (wordEffect i m ⟨1, sourceOffset src + 4, b⟩ (wordEffect i m ⟨0, sourceOffset src + 0, a⟩ u))))) = _
  rw [quiet 0 0 a u, quiet 1 4 b u, quiet 2 8 c u, quiet 3 12 d u, quiet 4 16 h u,
    wordEffect_source i m src ⟨5, sourceOffset src + 20, e⟩ (by decide : 20 < 64) rfl]
  · rfl
  all_goals decide

/-- A write of a source's enable word, alone or with its geometry: the request or the disable it makes. -/
theorem arrive_enable {u : State} (writes : ConsoleWrites s f)
    (effect : enableWordWritten f.initiator src (enableWritten s src g enable live copy) = u) (lines : u.lines = s.lines)
    (holds : u.holds = s.holds) (wait : u.passWait = s.passWait) :
    arrive (enableTxn s f src g enable live copy) s = enterPass (enableTxn s f src g enable live copy) u := by
  have bound := src.isLt
  have offset : enableOffset src = 0x1000 + 64 * src.val + 0x14 := rfl
  cases g with
  | none =>
    have here : wordEffect f.initiator s.shadow ⟨0, enableOffset src, enableWord enable live copy⟩
        (written s (enableOffset src) [enableWord enable live copy]) = u :=
      (wordEffect_source f.initiator s.shadow src _ (by decide : 0x14 < 64) rfl _).trans effect
    exact arrive_word writes (by omega) (.inr (.inr (by omega))) here lines holds wait
  | some g =>
    have six : (geometryWords g ++ [enableWord enable live copy]).length = 6 := rfl
    refine arrive_effects (off := sourceOffset src) writes ⟨?_, ?_, ?_, ?_⟩ (accepted_open writes.console fun k small => ?_)
      ((effects_geometry f.initiator s.shadow g _ _).trans effect) lines holds wait
    · rw [sourceOffset]
      omega
    · rw [six]
      decide
    · rw [six, sourceOffset]
      omega
    · rw [sourceOffset, Config.controlBytes]
      omega
    · rw [six] at small
      refine .inr (.inr ?_)
      rw [sourceOffset]
      omega

theorem enableWordWritten_request {i : Initiator} {v : State} (bit : enableBit v.shadow src = true)
    (none : v.apertures[src] = none) : enableWordWritten i src v = requestEnable i src v := by
  rw [enableWordWritten, bit, none]

theorem enableWordWritten_again {i : Initiator} {v : State} {a : Aperture} (bit : enableBit v.shadow src = true)
    (some : v.apertures[src] = some a) : enableWordWritten i src v = v := by
  rw [enableWordWritten, bit, some]

theorem enableWordWritten_disable {i : Initiator} {v : State} {a : Aperture} (bit : enableBit v.shadow src = false)
    (some : v.apertures[src] = some a) : enableWordWritten i src v = disableSource src v := by
  rw [enableWordWritten, bit, some]

theorem enableWordWritten_off {i : Initiator} {v : State} (bit : enableBit v.shadow src = false)
    (none : v.apertures[src] = none) : enableWordWritten i src v = v := by
  rw [enableWordWritten, bit, none]

/-- The write of an enable word changes the shadow alone. -/
theorem enableWritten_eq : ∃ m, enableWritten s src g enable live copy = { s with shadow := m } := by
  cases g <;> exact ⟨_, rfl⟩

/-- Settles O20. -/
theorem enableRequestDecided : Obligations.EnableRequestDecided := by
  intro s v f src g live copy t writes tIs vIs
  have vIs' : v = enableWritten s src g true live copy := by
    rw [vIs]
    cases g <;> rfl
  have bit : enableBit v.shadow src = true := by rw [vIs', enableBit_written writes]
  obtain ⟨m, same⟩ := enableWritten_eq (s := s) (src := src) (g := g) (enable := true) (live := live) (copy := copy)
  rw [← vIs'] at same
  have effects : ∀ u, enableWordWritten f.initiator src v = u → u.lines = s.lines → u.holds = s.holds → u.passWait = s.passWait →
      exec (.enableRequest f src g live copy) s = .next (enterPass t u) := by
    intro u effect lines holds wait
    show Host.Outcome.next (arrive (enableTxn s f src g true live copy) s) = _
    rw [arrive_enable writes (vIs' ▸ effect) lines holds wait, tIs]
  have apertures : v.apertures = s.apertures := by rw [same]
  obtain ⟨refused, accepted⟩ := enableRefusal_iff (s := v) (src := src)
  refine ⟨fun a some => ?_, fun reason item none fails => ?_, fun none passes => ?_⟩
  · exact effects v (enableWordWritten_again bit (apertures ▸ some)) (by rw [same]) (by rw [same]) (by rw [same])
  · refine effects _ ?_ (by rw [same]) (by rw [same]) (by rw [same])
    rw [enableWordWritten_request bit (apertures ▸ none), requestEnable, (refused reason item).2 fails]
    rfl
  · have enabled := acceptEnable_enabled src v
    have effect : enableWordWritten f.initiator src v = acceptEnable src v := by
      rw [enableWordWritten_request bit (apertures ▸ none), requestEnable, accepted.2 passes]
    generalize acceptEnable src v = u at enabled effect
    obtain ⟨only, cadence, fed, armed, flagged, exposure, marking, fillCount⟩ := enabled
    have active : v.active = s.active := by rw [same]
    have nexts : v.next = s.next := by rw [same]
    have gates : v.gates = s.gates := by rw [same]
    simp only [mem_windowsFedBy, active, nexts] at fed
    rw [gates] at armed
    refine ⟨u, effects u effect (by rw [only.lines, same]) (by rw [only.holds, same]) (by rw [only.passWait, same]),
      by rw [only.apertures, apertures], by rw [cadence, same], only.shadow, fun w used feeds => fed w (.inl ⟨used, feeds⟩),
      fun l w next used feeds => fed w (.inr ⟨l, next, used, feeds⟩), armed, flagged, ?_, by rw [only.queue, same],
      by rw [only.holds, same], by rw [only.commit, same], by rw [only.mode, same], by rw [only.geometry, same],
      by rw [only.sync, same], by rw [only.overrun, same], by rw [exposure, same], by rw [marking, same],
      by rw [fillCount, same]⟩
    constructor
    · rw [only.wallTime, same]
    · rw [only.ponrst, same]
    · rw [only.baseStrap, same]
    · rw [only.prioStrap, same]
    · rw [only.owners, same]
    · rw [only.tags, same]
    · rw [only.exhaustion, same]
    · rw [only.lastGranted, same]
    · rw [only.storeOut, same]

/-- Settles O21. -/
theorem sourceDisabled : Obligations.SourceDisabled := by
  intro s f src live copy t v writes tIs vIs
  have vIs' : v = enableWritten s src none false live copy := vIs
  have bit : enableBit v.shadow src = false := by rw [vIs', enableBit_written writes]
  obtain ⟨m, same⟩ := enableWritten_eq (s := s) (src := src) (g := none) (enable := false) (live := live) (copy := copy)
  rw [← vIs'] at same
  have effects : ∀ u, enableWordWritten f.initiator src v = u → u.lines = s.lines → u.holds = s.holds → u.passWait = s.passWait →
      exec (.sourceDisable f src live copy) s = .next (enterPass t u) := by
    intro u effect lines holds wait
    show Host.Outcome.next (arrive (enableTxn s f src none false live copy) s) = _
    rw [arrive_enable writes (vIs' ▸ effect) lines holds wait, tIs]
  have apertures : v.apertures = s.apertures := by rw [same]
  refine ⟨fun none => ?_, fun a some => ?_⟩
  · exact effects v (enableWordWritten_off bit (apertures ▸ none)) (by rw [same]) (by rw [same]) (by rw [same])
  · have effect := enableWordWritten_disable (i := f.initiator) bit (apertures ▸ some)
    have disabled := disableSource_disabled src v
    generalize disableSource src v = u at disabled effect
    obtain ⟨only, cadence, flagged, exposure, marking, fillCount⟩ := disabled
    refine ⟨u, effects u effect (by rw [only.lines, same]) (by rw [only.holds, same]) (by rw [only.passWait, same]),
      by rw [only.apertures, same], by rw [cadence, same], by rw [only.overrun, same], only.shadow, flagged,
      by rw [only.queue, same], by rw [only.holds, same], by rw [exposure, same], by rw [marking, same], ?_,
      by rw [only.commit, same], by rw [only.mode, same], by rw [fillCount, same], by rw [only.geometry, same],
      by rw [only.sync, same]⟩
    constructor
    · rw [only.wallTime, same]
    · rw [only.ponrst, same]
    · rw [only.baseStrap, same]
    · rw [only.prioStrap, same]
    · rw [only.owners, same]
    · rw [only.tags, same]
    · rw [only.exhaustion, same]
    · rw [only.lastGranted, same]
    · rw [only.storeOut, same]

/-! ## RELEASE_FAILOVER (O32) -/

theorem onAlternate_eq (r : LayoutRecord) :
    onAlternate r = (r.window.state != .unused && r.effective != r.window.primary) := rfl

/-- Whether a window is on its alternate in NEXT. -/
def nextOnAlternate (s : State) (w : WindowId) : Bool := (nextRecordOf s w).any onAlternate

/-- NEXT with a window returned to its primary, where it is on its alternate. -/
def nextReturned (s : State) (w : WindowId) : Option Layout :=
  s.next.map fun l => { l with
    records := put l.records w (if onAlternate l.records[w] then returned l.records[w] else l.records[w]) }

/-- ACTIVE with a window returned to its primary, where it is on its alternate. -/
def activeReturned (s : State) (w : WindowId) : Layout :=
  { s.active with
    records := put s.active.records w
      (if onAlternate s.active.records[w] then returned s.active.records[w] else s.active.records[w]) }

theorem releaseFailover_idle {i : Initiator} {w : WindowId} {s : State} (onA : onAlternate s.active.records[w] = false)
    (onN : nextOnAlternate s w = false) : releaseFailover i w s = s := by
  have none : (nextRecordOf s w).filter onAlternate = none := by
    unfold nextOnAlternate at onN
    cases is : nextRecordOf s w with
    | none => rfl
    | some r =>
      rw [is, Option.any_some] at onN
      rw [Option.filter_some, onN]
      rfl
  unfold releaseFailover
  rw [none, onA]
  rfl

/-- The state in which a window is back on its primary and its gate armed. -/
def releasedState (w : WindowId) (s : State) : State :=
  armGate w (putNext w (((nextRecordOf s w).filter onAlternate).map returned)
    (putActive w ((if onAlternate s.active.records[w] then some s.active.records[w] else none).map returned) s))

theorem releasedState_eq (w : WindowId) (s : State) :
    ∃ p, releasedState w s = { s with
        active := activeReturned s w, next := nextReturned s w, gates := put s.gates w .armed, poster := p }
      ∧ (onAlternate s.active.records[w] = true → .image w ∈ p.flags) ∧ Hands [] s (releasedState w s) := by
  obtain ⟨p, active, _, events, allocation, flagged⟩ := putActive_eq w (onAlternate s.active.records[w]) returned s
  have next := putNext_eq w onAlternate returned { s with active := activeReturned s w, poster := p }
  obtain ⟨q, armed, flags, events', allocation'⟩ := armGate_eq w true
    { s with active := activeReturned s w, next := nextReturned s w, poster := p }
  have same : releasedState w s = { s with
      active := activeReturned s w, next := nextReturned s w, gates := put s.gates w .armed, poster := q } := by
    unfold releasedState
    rw [active]
    exact (congrArg (armGate w) next).trans armed
  refine ⟨q, same, fun onA => flags (flagged onA fun back => ?_), ?_⟩
  · rw [onAlternate_eq, Bool.and_eq_true, bne_iff_ne, bne_iff_ne] at onA
    exact onA.2 back.symm
  · rw [same]
    exact .of_stays rfl rfl (events'.trans events) (allocation'.trans allocation)

/-- What a release does to a window that is on its alternate in a copy (R147). -/
theorem releaseFailover_eq {i : Initiator} {w : WindowId} {s : State}
    (some_ : (onAlternate s.active.records[w] || nextOnAlternate s w) = true) :
    ∃ p n left taken, releaseFailover i w s = { s with
        active := activeReturned s w, next := nextReturned s w, gates := put s.gates w .armed, poster := p, choices := n }
      ∧ (onAlternate s.active.records[w] = true → .image w ∈ p.flags)
      ∧ Hands [evFailback w (copiesCode (onAlternate s.active.records[w]) (nextOnAlternate s w)) left taken 2 i] s
        (releaseFailover i w s) := by
  obtain ⟨p, same, flagged, quiet⟩ := releasedState_eq w s
  have isA : (if onAlternate s.active.records[w] then some s.active.records[w] else none).isSome
      = onAlternate s.active.records[w] := by
    cases onAlternate s.active.records[w] <;> rfl
  have isN : ((nextRecordOf s w).filter onAlternate).isSome = nextOnAlternate s w := by
    unfold nextOnAlternate
    cases nextRecordOf s w with
    | none => rfl
    | some r =>
      rw [Option.filter_some, Option.any_some]
      cases onAlternate r <;> rfl
  generalize ra_is : (if onAlternate s.active.records[w] then some s.active.records[w] else none) = ra at isA
  generalize rn_is : (nextRecordOf s w).filter onAlternate = rn at isN
  have due : (ra.isNone && rn.isNone) = false := by
    rw [← Option.not_isSome, ← Option.not_isSome, isA, isN, ← Bool.not_or, some_]
    rfl
  have posts : releaseFailover i w s = postEvent (evFailback w (copiesCode ra.isSome rn.isSome)
      (reportedSources (ra.map returnSources) (rn.map returnSources) (releasedState w s)).1.1
      (reportedSources (ra.map returnSources) (rn.map returnSources) (releasedState w s)).1.2 2 i)
      (reportedSources (ra.map returnSources) (rn.map returnSources) (releasedState w s)).2 := by
    unfold releaseFailover releasedState
    rw [ra_is, rn_is]
    dsimp only
    rw [due]
    rfl
  have chosen : (ra.map returnSources).isSome ∨ (rn.map returnSources).isSome := by
    rw [Option.isSome_map, Option.isSome_map, isA, isN]
    exact Bool.or_eq_true_iff.1 some_
  obtain ⟨_, ⟨p', n', sources⟩, hands, flags⟩ := reportedSources_among _ _ (releasedState w s) chosen
  rw [posts, isA, isN]
  generalize (reportedSources (ra.map returnSources) (rn.map returnSources) (releasedState w s)).1 = q
  generalize (reportedSources (ra.map returnSources) (rn.map returnSources) (releasedState w s)).2 = y at sources hands flags
  have posted := posts_postEvent (evFailback w (copiesCode (onAlternate s.active.records[w]) (nextOnAlternate s w)) q.1 q.2 2 i) y
  obtain ⟨⟨r, m, last⟩, hands', flags'⟩ := posted
  rw [same] at flags
  refine ⟨r, m, q.1, q.2, ?_, fun onA => ?_, quiet.quiet_trans (hands.quiet_trans hands')⟩
  · rw [last, sources, same]
  · rw [last] at flags'
    exact flags' (flags (flagged onA))

theorem byteOf_wordOf (a b c d : Byte) : byteOf (wordOf a b c d) 2 = c := by
  have bytes := wordBytes_wordOf a b c d
  exact (List.cons.inj (List.cons.inj (List.cons.inj bytes).2).2).1

theorem commandRelease_at {i : Initiator} {m : Nat} {w : WindowId} {v : State} (here : m = w.val) :
    commandReleaseFailover i m v = if ownedByOther v i w then (v, .notOwner, noDetail)
      else (releaseFailover i w v, .done, noDetail) := by
  subst here
  rw [commandReleaseFailover, dif_pos w.isLt]

theorem nextReturned_some {s : State} {l : Layout} (w : WindowId) (next : s.next = some l) :
    nextReturned s w = if nextOnAlternate s w then some { l with
        records := put l.records w { l.records[w] with effective := l.records[w].window.primary } } else some l := by
  unfold nextReturned nextOnAlternate nextRecordOf
  rw [next, Option.map_some, Option.map_some, Option.any_some]
  split
  · rfl
  · rw [Traffic.put_same]

theorem activeReturned_eq (s : State) (w : WindowId) : activeReturned s w = { s.active with
    records := if onAlternate s.active.records[w] then
        put s.active.records w { s.active.records[w] with effective := s.active.records[w].window.primary }
      else s.active.records } := by
  unfold activeReturned
  split
  · rfl
  · rw [Traffic.put_same]

/-- A write of the command block changes neither the event mask nor the consumer index. -/
theorem command_written {s : State} {ws : List Word} (short : ws.length ≤ 2) :
    (∀ kind, eventEnabled (written s 0x100 ws).shadow kind = eventEnabled s.shadow kind)
      ∧ unread (written s 0x100 ws) = unread s := by
  have index : consumerIndex (written s 0x100 ws).shadow = consumerIndex s.shadow :=
    shadowRead_writeBytes_other s.shadow 0x100 0x400 (bytesOf ws) (by rw [bytesOf_length]; omega)
  have mask : shadowWord (written s 0x100 ws).shadow 0x30 = shadowWord s.shadow 0x30 := shadowWord_beside (.inl (by decide))
  exact ⟨fun kind => by rw [eventEnabled, mask, eventEnabled], by rw [unread, unreadOf, index]; rfl⟩

/-- Settles O32. -/
theorem releaseFailoverReturns : Obligations.ReleaseFailoverReturns := by
  intro s v f q n w onA onN writes vIs
  have action : commandAction f.initiator (6 : Byte).toNat q n v = commandReleaseFailover f.initiator n.toNat v := rfl
  have stays : PortStays s v := by rw [vIs]; exact ⟨rfl, rfl, rfl⟩
  have owned : ownedByOther v f.initiator w = ownedByOther s f.initiator w := by rw [vIs]; rfl
  refine ⟨fun none => ?_, fun here other => ?_, fun here mine onA_is onN_is => ?_⟩
  · refine congrArg Host.Outcome.next (argument_quiet writes vIs ?_ stays)
    rw [action, commandReleaseFailover, dif_neg (by omega)]
  · refine congrArg Host.Outcome.next (argument_quiet writes vIs ?_ stays)
    rw [action, commandRelease_at here, owned, other]
    rfl
  · have releases : commandAction f.initiator (6 : Byte).toNat q n v = (releaseFailover f.initiator w v, .done, noDetail) := by
      rw [action, commandRelease_at here, owned, mine]
      rfl
    have active : v.active = s.active := by rw [vIs]; rfl
    have nexts : v.next = s.next := by rw [vIs]; rfl
    have a : onAlternate v.active.records[w] = onA := by rw [active, onA_is]; rfl
    have b : nextOnAlternate v w = onN := by
      rw [onN_is, ← nexts]
      unfold nextOnAlternate nextRecordOf
      cases v.next <;> rfl
    have activeIs := activeReturned_eq v w
    rw [a, active] at activeIs
    refine ⟨fun notA notN => ?_, fun some_ => ?_⟩
    · refine congrArg Host.Outcome.next (argument_quiet writes vIs ?_ stays)
      rw [releases, releaseFailover_idle (a.trans notA) (b.trans notN)]
    · obtain ⟨p, m, left, taken, same, flagged, hands⟩ := releaseFailover_eq (i := f.initiator) (w := w) (s := v)
        (by rw [a, b]; exact some_)
      generalize releaseFailover f.initiator w v = u at same hands releases
      rw [activeIs] at same
      rw [a] at flagged
      rw [a, b] at hands
      refine ⟨u, congrArg Host.Outcome.next (argument_quiet writes vIs releases ?_), by rw [same], by rw [same], ?_, ?_,
        fun yes => by rw [same]; exact flagged yes, fun enabled room => ?_, ?_, ?_, ?_, ?_, ?_, ?_⟩
      · constructor
        · rw [same]
          exact stays.lines
        · rw [same]
          exact stays.holds
        · rw [same]
          exact stays.passWait
      · have uNext : u.next = nextReturned v w := by rw [same]
        rw [uNext]
        cases is : s.next with
        | none =>
          rw [nextReturned, nexts, is]
          rfl
        | some l =>
          rw [nextReturned_some w (nexts.trans is), b]
      · rw [same, vIs]
        rfl
      · obtain ⟨mask, ring⟩ := command_written (s := s) (ws := [commandWord q 6, n.setWidth 32]) (Nat.le_refl 2)
        have shadow : eventEnabled v.shadow 11 = true := by rw [vIs, mask, enabled]
        have notFull : unread v ≠ 255 := by rw [vIs, ring]; exact room
        obtain ⟨r, events, tells⟩ := single_handed hands shadow notFull
        obtain ⟨kind, detail, subject, initiator, _, extra⟩ := of_bare tells
        have poster : v.poster = s.poster := by rw [vIs]; rfl
        rw [poster] at events
        refine ⟨r, events, kind, detail, subject, initiator, ?_⟩
        rw [extra]
        exact byteOf_wordOf _ _ _ _
      all_goals rw [same, vIs] <;> rfl

end Sys2Proof.Sources
/-! What an offer of a switch to many panels does: the switch of the UNSYNCED panels at an acceptance (O25), the switch limit
(O46), and the force of a commit (O28). -/

namespace Sys2Proof.Commits

open Sys2Proof Sys2Proof.Machine Sys2Proof.Steps Sys2Proof.BlockInvariants

/-! ## Offering a switch to panels -/

/-- Whether a panel is switched by an offer to these panels. -/
def switchedBy (want : PanelId → Bool) (done : List PanelId) (y : State) (p : PanelId) : Bool :=
  done.contains p && want p && isGrid y.geometry p && !y.commit.switched[p]

/-- From `y`, with a commit in flight, to `z` the panels of a list have been offered a switch; each switch of a wanted panel
adds `k` to the late count. -/
structure Offered (end_ : CommitState) (want : PanelId → Bool) (k : Nat) (done : List PanelId) (y z : State) : Prop where
  coherent : CommitCoherent z
  only : SwitchOnly y z
  number : z.commit.number = y.commit.number
  late : z.commit.late + k * z.commit.remaining = y.commit.late + k * y.commit.remaining
  flying : z.commit.state = .inFlight → z.next = y.next ∧ z.active = y.active ∧ z.commit.limit = y.commit.limit
    ∧ z.commit.limitStart = y.commit.limitStart
    ∧ ∀ p : PanelId, z.commit.switched[p] = (y.commit.switched[p] || switchedBy want done y p)
      ∧ z.selection[p] = if switchedBy want done y p then .next else y.selection[p]
  ended : z.commit.state ≠ .inFlight → z.commit.state = end_ ∧ z.commit.remaining = 0 ∧ y.next = some z.active
    ∧ ∀ p : PanelId, isGrid y.geometry p = true → y.commit.switched[p] = true ∨ (p ∈ done ∧ want p = true)

/-- An offer of a switch to a panel: nothing where it is not wanted or not due, else a switch after the late count. -/
structure Offers (end_ : CommitState) (outcome : CommandOutcome) (want : PanelId → Bool) (k : Nat) (y : State)
    (offer : PanelId → State → State) : Prop where
  idle : ∀ p z, SwitchOnly y z → want p = false ∨ canSwitch z p = false → offer p z = z
  switch : ∀ p z, SwitchOnly y z → want p = true → canSwitch z p = true →
    ∃ q, offer p z = switchPanel end_ outcome p { z with commit := { z.commit with late := z.commit.late + k }, poster := q }

theorem switchedBy_cons (want : PanelId → Bool) (p : PanelId) (done : List PanelId) (y : State) (q : PanelId) :
    switchedBy want (p :: done) y q
      = (switchedBy want done y q || (q == p && want q && isGrid y.geometry q && !y.commit.switched[q])) := by
  unfold switchedBy
  rw [List.contains_cons]
  cases q == p <;> cases done.contains q <;> simp

theorem Offered.refl {end_ : CommitState} {want : PanelId → Bool} {k : Nat} {y : State} (coherent : CommitCoherent y)
    (flying : y.commit.state = .inFlight) : Offered end_ want k [] y y := by
  refine ⟨coherent, .refl y, rfl, rfl, fun _ => ⟨rfl, rfl, rfl, rfl, fun p => ?_⟩, fun not => absurd flying not⟩
  simp [switchedBy]

/-- A panel that is not wanted or not due changes nothing. -/
theorem Offered.skip {end_ : CommitState} {want : PanelId → Bool} {k : Nat} {done : List PanelId} {y z : State} {p : PanelId}
    (h : Offered end_ want k done y z)
    (not : z.commit.state = .inFlight → (want p && isGrid y.geometry p && !y.commit.switched[p]) = false) :
    Offered end_ want k (p :: done) y z := by
  refine ⟨h.coherent, h.only, h.number, h.late, fun flying => ?_, fun idle => ?_⟩
  · obtain ⟨next, active, limit, start, panels⟩ := h.flying flying
    refine ⟨next, active, limit, start, fun q => ?_⟩
    have same : switchedBy want (p :: done) y q = switchedBy want done y q := by
      rw [switchedBy_cons]
      by_cases here : q = p
      · subst here
        have none := not flying
        rw [beq_self_eq_true, Bool.true_and, none, Bool.or_false]
      · rw [beq_false_of_ne here]
        simp
    rw [same]
    exact panels q
  · obtain ⟨state, remaining, next, panels⟩ := h.ended idle
    refine ⟨state, remaining, next, fun q grid => ?_⟩
    exact (panels q grid).imp_right fun ⟨mem, wanted⟩ => ⟨List.mem_cons_of_mem p mem, wanted⟩

/-- A wanted panel that is due switches, and the last one ends the commit. -/
theorem Offered.switch {end_ : CommitState} {outcome : CommandOutcome} {want : PanelId → Bool} {k : Nat}
    {done : List PanelId} {y z : State} {p : PanelId} {q : Poster} (notFlying : end_ ≠ .inFlight)
    (h : Offered end_ want k done y z) (fresh : p ∉ done) (wanted : want p = true) (due : canSwitch z p = true) :
    Offered end_ want k (p :: done) y
      (switchPanel end_ outcome p { z with commit := { z.commit with late := z.commit.late + k }, poster := q }) := by
  obtain ⟨x, xIs⟩ : ∃ x, x = { z with commit := { z.commit with late := z.commit.late + k }, poster := q } := ⟨_, rfl⟩
  rw [← xIs]
  obtain ⟨flying, grid, notYet⟩ := (canSwitch_iff z p).1 due
  obtain ⟨next, active, limit, start, panels⟩ := h.flying flying
  have coherentX : CommitCoherent x := by
    rw [xIs]
    exact ⟨h.coherent.next, h.coherent.running, h.coherent.remaining, h.coherent.panels, h.coherent.grid⟩
  have dueX : canSwitch x p = true := by rw [xIs]; exact due
  have onlyX : SwitchOnly z x := by rw [xIs]; constructor <;> rfl
  have kept := switchPanel_commit end_ outcome p x notFlying coherentX
  have only := switchPanel_only end_ outcome p x
  have switches := switchPanel_switches end_ outcome p x
  have grid' : isGrid y.geometry p = true := by rw [← h.only.geometry]; exact grid
  obtain ⟨counted, positive⟩ := h.coherent.remaining flying
  have switchedX : x.commit.switched = z.commit.switched := by rw [xIs]
  have remainingX : x.commit.remaining = z.commit.remaining := by rw [xIs]
  have lateX : x.commit.late = z.commit.late + k := by rw [xIs]
  have numberX : x.commit.number = z.commit.number := by rw [xIs]
  have lateSum : x.commit.late + k * (x.commit.remaining - 1) = y.commit.late + k * y.commit.remaining := by
    rw [lateX, remainingX, ← h.late]
    obtain ⟨m, is⟩ : ∃ m, z.commit.remaining = m + 1 := ⟨z.commit.remaining - 1, by omega⟩
    rw [is, Nat.add_sub_cancel, Nat.mul_succ]
    omega
  have notBefore : y.commit.switched[p] = false := by
    have sw := (panels p).1
    rw [notYet] at sw
    exact (Bool.or_eq_false_iff.1 sw.symm).1
  have newly : ∀ r : PanelId, switchedBy want (p :: done) y r = (switchedBy want done y r || r == p) := fun r => by
    rw [switchedBy_cons]
    by_cases here : r = p
    · subst here
      rw [beq_self_eq_true, wanted, grid', notBefore]
      rfl
    · rw [beq_false_of_ne here]
      rfl
  have switchedAfter : ∀ r : PanelId, (put z.commit.switched p true)[r]
      = (y.commit.switched[r] || switchedBy want (p :: done) y r) := fun r => by
    rw [newly]
    by_cases here : p = r
    · subst here
      rw [put_self, beq_self_eq_true, Bool.or_true, Bool.or_true]
    · rw [put_of_ne _ _ _ _ here, (panels r).1, beq_false_of_ne (Ne.symm here), Bool.or_false]
  have nextX : x.next = y.next := by rw [xIs]; exact next
  generalize switchPanel end_ outcome p x = t at kept only switches ⊢
  have onlyAll : SwitchOnly y t := (h.only.trans onlyX).trans only
  cases switches with
  | notDue why =>
    rcases why with none | notDue
    · have some_ := h.coherent.next.2 flying
      rw [next, ← nextX, none] at some_
      cases some_
    · rw [dueX] at notDue
      cases notDue
  | moves l exists_ _ more =>
    have moved := movePanel_moved p l x
    generalize movePanel p l x = t at moved kept onlyAll more ⊢
    have commit := moved.commit
    have flyingX : x.commit.state = .inFlight := by rw [xIs]; exact flying
    refine ⟨kept, onlyAll, by rw [commit, ← h.number]; exact numberX, by rw [commit]; exact lateSum, fun _ => ?_,
      fun not => ?_⟩
    · refine ⟨moved.next.trans nextX, ?_, ?_, ?_, fun r => ⟨?_, ?_⟩⟩
      · rw [moved.active, xIs]
        exact active
      · rw [commit, xIs]
        exact limit
      · rw [commit, xIs]
        exact start
      · rw [commit]
        show (put x.commit.switched p true)[r] = _
        rw [switchedX, switchedAfter]
      · rw [moved.selection, newly, xIs]
        by_cases here : p = r
        · subst here
          rw [put_self, beq_self_eq_true, Bool.or_true, if_pos rfl]
        · rw [put_of_ne _ _ _ _ here, (panels r).2, beq_false_of_ne (Ne.symm here), Bool.or_false]
    · rw [commit] at not
      exact absurd flyingX not
  | completes l exists_ _ last =>
    have moved := movePanel_moved p l x
    generalize movePanel p l x = m at moved kept onlyAll last ⊢
    have ended := completeCommit_ended (end_ := end_) (outcome := outcome) (moved.next.trans exists_)
    generalize completeCommit end_ outcome m = t at ended kept onlyAll ⊢
    have commit := ended.commit
    rw [moved.commit] at commit last
    have none_left : x.commit.remaining - 1 = 0 := last
    refine ⟨kept, onlyAll, by rw [commit, ← h.number]; exact numberX, ?_, fun still => ?_, fun _ => ?_⟩
    · rw [commit, ← lateSum, none_left]
    · rw [commit] at still
      exact absurd still notFlying
    · refine ⟨by rw [commit], by rw [commit], by rw [ended.active, ← nextX, exists_], fun r gridR => ?_⟩
      have all : unswitched z = 1 := by
        rw [remainingX] at none_left
        omega
      by_cases here : r = p
      · subst here
        exact .inr ⟨List.mem_cons_self, wanted⟩
      · have switched : z.commit.switched[r] = true := by
          refine Classical.byContradiction fun not => ?_
          have two := unswitched_switched (t := { z with commit := { z.commit with switched := put z.commit.switched p true } })
            grid notYet rfl rfl
          have none : unswitched { z with commit := { z.commit with switched := put z.commit.switched p true } } = 0 := by omega
          have counts := List.countP_eq_zero.1 none r (List.mem_finRange r)
          have gridR' : isGrid z.geometry r = true := by rw [h.only.geometry]; exact gridR
          have not' : (put z.commit.switched p true)[r] = false := by
            rw [put_of_ne _ _ _ _ (Ne.symm here)]
            exact Bool.eq_false_iff.2 not
          exact counts (by rw [gridR', not']; rfl)
        rw [(panels r).1, Bool.or_eq_true] at switched
        rcases switched with before | now
        · exact .inl before
        · simp only [switchedBy, Bool.and_eq_true, List.contains_iff_mem] at now
          exact .inr ⟨List.mem_cons_of_mem p now.1.1.1, now.1.1.2⟩

/-- The panels of a list are offered a switch, one after another. -/
theorem offered_all {end_ : CommitState} {outcome : CommandOutcome} {want : PanelId → Bool} {k : Nat} {y : State}
    {offer : PanelId → State → State} (notFlying : end_ ≠ .inFlight) (offers : Offers end_ outcome want k y offer)
    (l : List PanelId) (nodup : l.Nodup) {done : List PanelId} {z : State} (apart : ∀ p ∈ l, p ∉ done)
    (h : Offered end_ want k done y z) :
    Offered end_ want k (l.reverse ++ done) y (l.foldl (fun s p => offer p s) z) := by
  induction l generalizing z done with
  | nil => exact h
  | cons p l ih =>
    obtain ⟨fresh, nodup⟩ := List.nodup_cons.1 nodup
    have notYet := apart p List.mem_cons_self
    have step : Offered end_ want k (p :: done) y (offer p z) := by
      by_cases due : want p = true ∧ canSwitch z p = true
      · obtain ⟨q, same⟩ := offers.switch p z h.only due.1 due.2
        rw [same]
        exact h.switch notFlying notYet due.1 due.2
      · have not : want p = false ∨ canSwitch z p = false := by
          rw [← Bool.not_eq_true, ← Bool.not_eq_true]
          exact Classical.not_and_iff_not_or_not.1 due
        rw [offers.idle p z h.only not]
        refine h.skip fun flying => Bool.eq_false_iff.2 fun wants => ?_
        simp only [Bool.and_eq_true, Bool.not_eq_true'] at wants
        obtain ⟨⟨wanted, grid⟩, unswitched⟩ := wants
        have panel := ((h.flying flying).2.2.2.2 p).1
        refine due ⟨wanted, (canSwitch_iff z p).2 ⟨flying, by rw [h.only.geometry]; exact grid, ?_⟩⟩
        rw [panel, unswitched]
        have absent : done.contains p = false := by simpa using notYet
        unfold switchedBy
        rw [absent]
        rfl
    have rest := ih nodup (done := p :: done) (fun r mem => by
      simp only [List.mem_cons, not_or]
      exact ⟨fun same => fresh (same ▸ mem), apart r (List.mem_cons_of_mem p mem)⟩) step
    simpa using rest

/-- Every panel is offered a switch. -/
theorem offered_every {end_ : CommitState} {outcome : CommandOutcome} {want : PanelId → Bool} {k : Nat} {y : State}
    {offer : PanelId → State → State} (notFlying : end_ ≠ .inFlight) (offers : Offers end_ outcome want k y offer)
    (coherent : CommitCoherent y) (flying : y.commit.state = .inFlight) :
    ∃ done, (∀ p, p ∈ done) ∧ Offered end_ want k done y ((List.finRange 32).foldl (fun s p => offer p s) y) :=
  ⟨_, fun p => by simp, offered_all notFlying offers (List.finRange 32) (List.nodup_finRange 32)
    (fun p _ mem => by cases mem) (.refl coherent flying)⟩

end Sys2Proof.Commits
/-! PROOFS of O25 and O26: a COMMIT accepted in RUN, and one taken in SETUP. -/

namespace Sys2Proof.CommitCommands

open Sys2Proof Sys2Proof.Machine Sys2Proof.Steps Sys2Proof.Commits Sys2Proof.Failover Sys2Proof.Sources
  Sys2Proof.ControlWrites

/-! ## STAGE as a commit takes it -/

theorem staged_record (m : Shadow) (epoch : Half) (w : WindowId) : (stagedLayout m epoch).records[w] = stagedRecord m w := by
  show (Vector.ofFn _)[w] = _
  exact Vector.getElem_ofFn w.isLt

/-- In a valid STAGE the alternate of a window with a failover mode is another source (R105, check 6). -/
theorem alternate_ne_primary {m : Shadow} {w : WindowId} (valid : StageValid m) (used : (stageWindow m w).state ≠ .unused)
    (mode : (stageWindow m w).mode ≠ .off) : (stageWindow m w).alternate ≠ some (stageWindow m w).primary :=
  fun same => valid w used 6 none (.alternate mode (.inr same))

/-- At a commit the evaluation finds for a window of a valid STAGE a failover or no switch, and leaves the committed record. -/
theorem judge_staged {s t : State} (valid : StageValid s.shadow) (cadence : t.cadence = s.cadence) (w : WindowId) :
    moved (stagedRecord s.shadow w) (due none t (stagedRecord s.shadow w)) = committedRecord s w
      ∧ (due none t (stagedRecord s.shadow w) == some .failover || due none t (stagedRecord s.shadow w) == some .failback)
        = failsOverAtCommit s w := by
  have all : due none t (stagedRecord s.shadow w) = judge s (stagedRecord s.shadow w) := judge_congr cadence _
  rw [all]
  unfold committedRecord failsOverAtCommit
  by_cases used : (stageWindow s.shadow w).state = .unused
  · have quiet : judge s (stagedRecord s.shadow w) = none := if_pos used
    rw [quiet, used]
    exact ⟨rfl, rfl⟩
  · have counted : ((stageWindow s.shadow w).state != .unused) = true := bne_iff_ne.2 used
    rw [counted, Bool.true_and]
    cases mode : (stageWindow s.shadow w).mode with
    | off =>
      have quiet : judge s (stagedRecord s.shadow w) = none := by
        unfold judge stagedRecord
        rw [if_neg used, mode]
      rw [quiet]
      exact ⟨rfl, rfl⟩
    | notify =>
      rw [judge_notify used mode]
      cases failoverHolds s (stagedRecord s.shadow w) <;> exact ⟨rfl, rfl⟩
    | auto =>
      have other := alternate_ne_primary valid used (by rw [mode]; simp)
      have noFailback : failbackHolds s (stagedRecord s.shadow w) = false := by
        have apart : ((stagedRecord s.shadow w).window.alternate == some (stagedRecord s.shadow w).effective) = false :=
          beq_false_of_ne other
        unfold failbackHolds
        rw [apart]
        rfl
      rw [judge_auto used mode, noFailback]
      cases failoverHolds s (stagedRecord s.shadow w) <;> exact ⟨rfl, rfl⟩

theorem mem_changedList (s : State) (l : Layout) (w : WindowId) : w ∈ changedList (changedSet s l)
    ↔ changedWindow s.active.records[w].window l.records[w].window = true := by
  have at_w : (changedSet s l)[w] = changedWindow s.active.records[w].window l.records[w].window :=
    Vector.getElem_ofFn w.isLt
  unfold changedList
  rw [List.mem_filter, at_w]
  exact and_iff_right (List.mem_finRange w)

theorem mem_changed_staged (s : State) (epoch : Half) (w : WindowId) :
    w ∈ changedList (changedSet s (stagedLayout s.shadow epoch))
      ↔ changedWindow s.active.records[w].window (stageWindow s.shadow w) = true := by
  rw [mem_changedList, staged_record]
  rfl

/-! ## A commit in SETUP (O26) -/

theorem flagAll_eq (items : List PostItem) (s : State) : ∃ p, flagAll items s = { s with poster := p } := by
  induction items generalizing s with
  | nil => exact ⟨s.poster, rfl⟩
  | cons i items ih =>
    obtain ⟨p, same⟩ := ih (flag i s)
    exact ⟨p, same⟩

theorem setPanelLayouts_eq (copy : Copy) (epoch : Half) (l : List PanelId) (s : State) : ∃ sel pe p,
    l.foldl (fun s p => setPanelLayout p copy epoch s) s = { s with selection := sel, panelEpoch := pe, poster := p } := by
  induction l generalizing s with
  | nil => exact ⟨s.selection, s.panelEpoch, s.poster, rfl⟩
  | cons q l ih =>
    obtain ⟨sel, pe, p, same⟩ := ih (setPanelLayout q copy epoch s)
    exact ⟨sel, pe, p, same⟩

/-- What replacing ACTIVE by STAGE does before the evaluation. -/
theorem replaceActive_eq (number : Half) (s : State) : ∃ g sel pe p, replaceActive number s = { s with
      epochCounter := s.epochCounter + 1, active := stagedLayout s.shadow (s.epochCounter + 1), gates := g, selection := sel
      panelEpoch := pe
      commit := { s.commit with state := .done, number := number, remaining := 0, refusal := none }, poster := p }
    ∧ (∀ w : WindowId, g[w]
        = if changedWindow s.active.records[w].window (stageWindow s.shadow w) = true then .armed else s.gates[w])
    ∧ ∀ p : PanelId, sel[p] = .active ∧ pe[p] = s.epochCounter + 1 := by
  unfold replaceActive
  dsimp only
  generalize (List.filter _ _).map PostItem.image = images
  have changed := mem_changed_staged s (s.epochCounter + 1)
  generalize changedList (changedSet s (stagedLayout s.shadow (s.epochCounter + 1))) = ws at changed ⊢
  obtain ⟨p, flagged⟩ := flagAll_eq images
    { s with epochCounter := s.epochCounter + 1, active := stagedLayout s.shadow (s.epochCounter + 1) }
  rw [flagged]
  obtain ⟨g, q, armed, gates, -⟩ := armGates_eq ws { s with
    epochCounter := s.epochCounter + 1, active := stagedLayout s.shadow (s.epochCounter + 1), poster := p }
  rw [armed]
  obtain ⟨x, xIs⟩ : ∃ x, x = { s with
    epochCounter := s.epochCounter + 1, active := stagedLayout s.shadow (s.epochCounter + 1), gates := g
    poster := q } := ⟨_, rfl⟩
  obtain ⟨sel, pe, r, panels⟩ := setPanelLayouts_eq .active (s.epochCounter + 1) (List.finRange 32) x
  have all := setPanelLayouts_all .active (s.epochCounter + 1) x
  have epoch : (stagedLayout s.shadow (s.epochCounter + 1)).epoch = s.epochCounter + 1 := rfl
  rw [epoch, ← xIs]
  generalize (List.finRange 32).foldl (fun s p => setPanelLayout p .active _ s) x = t at panels all ⊢
  refine ⟨g, sel, pe, (setCommit { t.commit with state := .done, number := number, remaining := 0, refusal := none } t).poster,
    ?_, fun w => ?_, fun p => ?_⟩
  · rw [panels, xIs]
    rfl
  · rw [gates]
    simp only [changed w]
  · have at_p := all p
    rw [panels] at at_p
    exact at_p

/-- A command leaves STAGE as it was. -/
theorem staged_written {s v : State} {q n : Half} (vIs : v = written s 0x100 [commandWord q 1, n.setWidth 32]) :
    stageWindow v.shadow = stageWindow s.shadow := by
  rw [vIs]
  exact funext (stageWindow_beside (m := s.shadow) (off := 0x100) (ws := [commandWord q 1, n.setWidth 32]) (by simp))

/-- What a commit reads of STAGE. -/
theorem staged_congr {s v : State} (stage : stageWindow v.shadow = stageWindow s.shadow) (cadence : v.cadence = s.cadence) :
    (StageValid s.shadow → StageValid v.shadow) ∧ (∀ w, committedRecord v w = committedRecord s w)
      ∧ ∀ w, failsOverAtCommit v w = failsOverAtCommit s w := by
  have record : stagedRecord v.shadow = stagedRecord s.shadow := funext fun w => by
    unfold stagedRecord
    rw [stage]
  have fails : ∀ w, failsOverAtCommit v w = failsOverAtCommit s w := fun w => by
    unfold failsOverAtCommit failoverHolds cadenceOf
    rw [stage, record, cadence]
  refine ⟨fun valid w used n o fails => ?_, fun w => ?_, fails⟩
  · rw [stage] at used fails
    refine valid w used n o ?_
    cases fails with
    | sourceId h => exact .sourceId h
    | cropRange h => exact .cropRange h
    | placeRange h => exact .placeRange h
    | scaleRange h => exact .scaleRange h
    | layerDuplicate u same least =>
      unfold SameLayer at same least
      rw [stage] at same least
      exact .layerDuplicate u same least
    | alternate mode h => exact .alternate mode h
  · unfold committedRecord
    rw [fails, record, stage]

/-- Settles O26: STAGE replaces ACTIVE under the new epoch, then one evaluation fails over. -/
theorem commitTakenInSetup : Obligations.CommitTakenInSetup := by
  intro s f q n writes setup valid
  obtain ⟨v, vIs⟩ : ∃ v, v = written s 0x100 [commandWord q 1, n.setWidth 32] := ⟨_, rfl⟩
  obtain ⟨validV, recordV, failsV⟩ := staged_congr (staged_written vIs) (by rw [vIs]; rfl)
  replace validV := validV valid
  have stage := staged_written vIs
  obtain ⟨g, sel, pe, p, replaced, gates, panels⟩ := replaceActive_eq n v
  have on := evaluateFailover_on none true (replaceActive n v)
  have action : commandAction f.initiator (1 : Byte).toNat q n v = (commitInSetup f.initiator n v, .done, noDetail) := by
    have idle : ¬ (v.mode = .run ∧ v.commit.state = .inFlight) := by
      rw [vIs]
      rintro ⟨run, -⟩
      rw [show s.mode = .run from run] at setup
      cases setup
    refine (if_neg idle).trans ?_
    rw [validate_iff.2.2 validV, vIs]
    show (match s.mode with | .run => _ | .setup => _) = _
    rw [setup]
  rw [commitInSetup_eq] at action
  generalize replaceActive n v = t at replaced on action
  have tActive : ∀ w : WindowId, t.active.records[w] = stagedRecord v.shadow w := fun w => by
    rw [replaced]
    exact staged_record _ _ w
  have tCadence : t.cadence = v.cadence := by rw [replaced]
  have after : ∀ w : WindowId, (evaluateFailover none true t).active.records[w] = committedRecord s w := fun w => by
    rw [active_evaluated on, tActive]
    show moved _ (due none t t.active.records[w]) = _
    rw [tActive, (judge_staged validV tCadence w).1, recordV]
  have active : ∀ w : WindowId, (dueActive none true t w == some .failover || dueActive none true t w == some .failback)
      = failsOverAtCommit s w := fun w => by
    show (due none t t.active.records[w] == _ || due none t t.active.records[w] == _) = _
    rw [tActive, (judge_staged validV tCadence w).2, failsV]
  have gatesAfter := gates_evaluated on
  have tGates : ∀ w : WindowId, t.gates[w]
      = if changedWindow s.active.records[w].window (stageWindow s.shadow w) = true then .armed else s.gates[w] := fun w => by
    have at_w := gates w
    rw [stage, vIs] at at_w
    rw [replaced]
    exact at_w
  obtain ⟨ra, rn, ge, pv, m, rest⟩ := on.rest
  generalize evaluateFailover none true t = e at on after gatesAfter rest action
  obtain ⟨u, uIs⟩ : ∃ u, u = postEvent (evCommitDone .done n 0 f.initiator) e := ⟨_, rfl⟩
  have uGates : u.gates = e.gates := by rw [uIs]; rfl
  have uActive : u.active = e.active := by rw [uIs]; rfl
  refine ⟨u, congrArg Host.Outcome.next (argument_quiet writes vIs (uIs ▸ action) ?_), ?_, ?_, fun w => ?_, fun p => ?_, ?_,
    ?_, ?_, fun w arms => ?_, fun noNext w same stays => ?_, ?_, ?_, ?_, ?_, ?_, ?_,
    by rw [uIs, rest, replaced, vIs]; exact setup, by rw [uIs, rest, replaced, vIs]; constructor <;> rfl, ?_, ?_, ?_, ?_⟩
  · rw [uIs, rest, replaced, vIs]
    exact ⟨rfl, rfl, rfl⟩
  · rw [uIs, rest, replaced, vIs]
    rfl
  · rw [uIs, rest, replaced, vIs]
    rfl
  · rw [uActive]
    exact after w
  · have at_p := panels p
    rw [uIs, rest, replaced]
    rw [vIs] at at_p
    exact at_p
  · rw [uIs, rest, replaced]
    rfl
  · rw [uIs, rest, replaced]
    rfl
  · rw [uIs, rest, replaced]
    rfl
  · rw [uGates, gatesAfter]
    unfold switchesAt
    rw [active]
    rcases arms with changed | fails
    · rw [tGates, if_pos changed, ite_self]
    · rw [fails]
      rfl
  · have nothing : dueNext none t w = none := by
      unfold dueNext nextRecordOf
      rw [replaced, vIs]
      show (Option.map _ s.next).bind _ = none
      rw [noNext]
      rfl
    rw [uGates, gatesAfter]
    unfold switchesAt
    rw [active, nothing, stays, tGates, same]
    rfl
  all_goals (rw [uIs, rest, replaced, vIs]; rfl)

/-! ## A commit accepted in RUN (O25) -/

/-- The Commit Controller's items at the start of a commit (R108). -/
def begunCommit (number : Half) (s : State) : Commit :=
  { state := .inFlight, number := number, remaining := gridCount s.geometry, switched := Vector.replicate 32 false
    changed := changedSet s (stagedLayout s.shadow (s.epochCounter + 1)), late := 0, limit := switchLimit s.shadow
    limitStart := s.wallTime, refusal := none }

theorem beginCommit_eq (number : Half) (s : State) : ∃ g p, beginCommit number s = { s with
      epochCounter := s.epochCounter + 1, next := some (stagedLayout s.shadow (s.epochCounter + 1)), gates := g
      commit := begunCommit number s, poster := p }
    ∧ ∀ w : WindowId, g[w]
        = if changedWindow s.active.records[w].window (stageWindow s.shadow w) = true then .armed else s.gates[w] := by
  have changed := mem_changed_staged s (s.epochCounter + 1)
  have same : beginCommit number s = setCommit (begunCommit number s)
    (armGates (changedList (changedSet s (stagedLayout s.shadow (s.epochCounter + 1))))
      { s with epochCounter := s.epochCounter + 1, next := some (stagedLayout s.shadow (s.epochCounter + 1)) }) := rfl
  rw [same]
  generalize changedList (changedSet s (stagedLayout s.shadow (s.epochCounter + 1))) = ws at changed ⊢
  obtain ⟨g, q, armed, gates, -⟩ := armGates_eq ws { s with
    epochCounter := s.epochCounter + 1, next := some (stagedLayout s.shadow (s.epochCounter + 1)) }
  refine ⟨g, _, congrArg (setCommit (begunCommit number s)) armed, fun w => ?_⟩
  rw [gates]
  simp only [changed w]

/-- What an accepted COMMIT has made of `s` before the UNSYNCED panels switch. -/
structure Begun (number : Half) (s e : State) : Prop where
  rest : ∃ ra rn g p m, e = { s with
    epochCounter := s.epochCounter + 1, next := some { records := rn, epoch := s.epochCounter + 1 }, gates := g
    active := { s.active with records := ra }, commit := begunCommit number s, poster := p, choices := m }
  active : e.active = s.active
  records : ∀ (l : Layout), e.next = some l → ∀ w : WindowId, l.records[w] = committedRecord s w
  gates : ∀ w : WindowId, e.gates[w] = if changedWindow s.active.records[w].window (stageWindow s.shadow w) = true
    ∨ failsOverAtCommit s w = true then .armed else s.gates[w]
  coherent : CommitCoherent s → CommitCoherent e

theorem begun (number : Half) {s : State} (running : s.mode = .run) (idle : s.commit.state ≠ .inFlight)
    (valid : StageValid s.shadow) : Begun number s (evaluateFailover none false (beginCommit number s)) := by
  obtain ⟨g, p, started, gates⟩ := beginCommit_eq number s
  have on := evaluateFailover_on none false (beginCommit number s)
  have kept := beginCommit_commit number s running idle
  generalize beginCommit number s = t at started on kept ⊢
  have after := next_evaluated on
  have gatesAfter := gates_evaluated on
  have activeAfter : (evaluateFailover none false t).active.records = t.active.records := by
    ext i bound : 1
    exact active_evaluated on ⟨i, bound⟩
  obtain ⟨ra, rn, ge, pv, m, rest⟩ := on.rest
  generalize evaluateFailover none false t = e at on after gatesAfter activeAfter rest ⊢
  have cadence : t.cadence = s.cadence := by rw [started]
  have nextT : t.next = some (stagedLayout s.shadow (s.epochCounter + 1)) := by rw [started]
  have switchesIs : ∀ w : WindowId, switchesAt none false t w = failsOverAtCommit s w := fun w => by
    have due_w : dueNext none t w = due none t (stagedRecord s.shadow w) := by
      have at_w : nextRecordOf t w = some (stagedRecord s.shadow w) := by
        unfold nextRecordOf
        rw [nextT, Option.map_some, staged_record]
      unfold dueNext
      rw [at_w, Option.bind_some]
    have judged := (judge_staged valid cadence w).2
    unfold switchesAt dueActive
    rw [due_w, ← judged, Bool.or_assoc]
    rfl
  refine ⟨⟨ra, rn, ge, pv, m, ?_⟩, ?_, fun l is w => ?_, fun w => ?_, fun coherent => ?_⟩
  · rw [rest, started]
    rfl
  · have same : e.active = { t.active with records := e.active.records } := by rw [rest]
    rw [same, activeAfter, started]
  · rw [after, nextT, Option.map_some, Option.some_inj] at is
    rw [← is]
    show (Vector.map _ _)[w] = _
    refine (Vector.getElem_map _ w.isLt).trans ?_
    rw [← (judge_staged valid cadence w).1]
    exact congrArg (fun r => moved r (due none t r)) (staged_record _ _ w)
  · have at_w := gates w
    have tGates : t.gates = g := by rw [started]
    rw [gatesAfter, switchesIs, tGates, at_w]
    by_cases changed : changedWindow s.active.records[w].window (stageWindow s.shadow w) = true
    · rw [if_pos changed, ite_self, if_pos (.inl changed)]
    · by_cases fails : failsOverAtCommit s w = true
      · rw [if_pos fails, if_pos (.inr fails)]
      · rw [if_neg fails, if_neg changed, if_neg (not_or.2 ⟨changed, fails⟩)]
  · have coherentT := kept coherent
    have commit : e.commit = t.commit := by rw [rest]
    have geometry : e.geometry = t.geometry := by rw [rest]
    have next : e.next = t.next.map fun l => { l with records := rn } := by rw [rest]
    have left : Machine.unswitched e = Machine.unswitched t := unswitched_congr geometry (by rw [commit])
    refine ⟨?_, ?_, ?_, fun p => ?_, ?_⟩
    · rw [commit, ← coherentT.next, next, Option.isSome_map]
    · rw [commit, rest]
      exact coherentT.running
    · rw [commit, left]
      exact coherentT.remaining
    · have panel := coherentT.panels p
      have fields : e.selection = t.selection ∧ e.panelEpoch = t.panelEpoch ∧ e.active.epoch = t.active.epoch := by
        rw [rest]
        exact ⟨rfl, rfl, rfl⟩
      rw [fields.1, fields.2.1, fields.2.2, next]
      refine panel.imp_right fun ⟨selection, l, is, epoch⟩ => ⟨selection, { l with records := rn }, ?_, epoch⟩
      rw [is]
      rfl
    · rw [geometry]
      exact coherentT.grid

/-- Whether a panel is UNSYNCED. -/
def isUnsynced (s : State) (p : PanelId) : Bool := s.sync[p].state == .unsynced

theorem switchOnTime_offers (s e : State) (sync : e.sync = s.sync) : Offers .done .done (isUnsynced s) 0 e
    (fun p z => if z.sync[p].state = .unsynced then switchOnTime p z else z) where
  idle p z only not := by
    rw [only.sync, sync]
    by_cases unsynced : s.sync[p].state = .unsynced
    · rw [if_pos unsynced]
      have notDue : canSwitch z p = false := not.resolve_left (by unfold isUnsynced; rw [unsynced]; decide)
      unfold switchOnTime switchPanel
      rw [notDue]
      cases z.next <;> rfl
    · rw [if_neg unsynced]
  switch p z only wanted due := by
    have unsynced : z.sync[p].state = .unsynced := by
      rw [only.sync, sync]
      exact eq_of_beq wanted
    exact ⟨z.poster, if_pos unsynced⟩

theorem switchLimit_beside {m : Shadow} {off : Nat} {ws : List Word} (beside : 0x30 ≤ off) :
    switchLimit (shadowWriteBytes m off (bytesOf ws)) = switchLimit m := by
  unfold switchLimit halfField
  rw [shadowWord_beside (.inl beside)]

/-- Settles O25: the commit begins, NEXT is evaluated, and every UNSYNCED panel is offered its switch; the coherence of the
commit says how many remain. -/
theorem commitAcceptedInRun : Obligations.CommitAcceptedInRun := by
  intro s f q n writes coherent running idle valid
  obtain ⟨v, vIs⟩ : ∃ v, v = written s 0x100 [commandWord q 1, n.setWidth 32] := ⟨_, rfl⟩
  have stage := staged_written vIs
  obtain ⟨validV, recordV, failsV⟩ := staged_congr stage (by rw [vIs]; rfl)
  replace validV := validV valid
  have runningV : v.mode = .run := by rw [vIs]; exact running
  have idleV : v.commit.state ≠ .inFlight := by rw [vIs]; exact idle
  have coherentV : CommitCoherent v := by
    rw [vIs]
    exact ⟨coherent.next, coherent.running, coherent.remaining, coherent.panels, coherent.grid⟩
  have start := begun n runningV idleV validV
  obtain ⟨u, uIs⟩ : ∃ u, u = acceptInRun n v := ⟨_, rfl⟩
  have action : commandAction f.initiator (1 : Byte).toNat q n v = (u, .accepted, noDetail) := by
    rw [uIs]
    refine (if_neg fun ⟨_, flying⟩ => idleV flying).trans ?_
    rw [validate_iff.2.2 validV]
    dsimp only
    rw [runningV]
  have arrived := arrive_argument (q := q) (n := n) (code := 1) writes
  rw [commandDone, ← vIs, action] at arrived
  have folded : acceptInRun n v = (List.finRange 32).foldl
    (fun s p => if s.sync[p].state = .unsynced then switchOnTime p s else s) (evaluateFailover none false (beginCommit n v)) := rfl
  rw [folded] at uIs
  generalize evaluateFailover none false (beginCommit n v) = e at start uIs
  obtain ⟨ra, rn, g, p, m, rest⟩ := start.rest
  have sync : e.sync = s.sync := by rw [rest, vIs]; rfl
  have geometry : e.geometry = s.geometry := by rw [rest, vIs]; rfl
  have commit : e.commit = begunCommit n v := by rw [rest]
  have nextE : e.next = some { records := rn, epoch := v.epochCounter + 1 } := by rw [rest]
  have counter : v.epochCounter = s.epochCounter := by rw [vIs]; rfl
  have coherentE := start.coherent coherentV
  obtain ⟨done, all, offered⟩ := offered_every (by decide) (switchOnTime_offers s e sync) coherentE (by rw [commit]; rfl)
  rw [← uIs] at offered
  have only := offered.only
  have none_switched : ∀ p : PanelId, e.commit.switched[p] = false := fun p => by
    rw [commit]
    exact Vector.getElem_replicate p.isLt
  have switched : ∀ p : PanelId, switchedBy (isUnsynced s) done e p = (isUnsynced s p && isGrid s.geometry p) := fun p => by
    have has : done.contains p = true := List.contains_iff_mem.2 (all p)
    unfold switchedBy
    rw [has, none_switched, geometry]
    simp
  refine ⟨u, congrArg Host.Outcome.next arrived, ?_, ?_, ?_, ?_, ?_, ?_, ?_, ?_, fun w => ?_, fun some_ => ?_, fun every => ?_⟩
  · rw [only.epochCounter, rest, vIs]
    rfl
  · rw [offered.number, commit]
    rfl
  · have before : Untouched s e := by
      rw [rest, vIs]
      constructor <;> rfl
    exact ⟨only.wallTime.trans before.wallTime, only.ponrst.trans before.ponrst, only.baseStrap.trans before.baseStrap,
      only.prioStrap.trans before.prioStrap, only.owners.trans before.owners, only.tags.trans before.tags,
      only.exhaustion.trans before.exhaustion, only.lastGranted.trans before.lastGranted,
      only.storeOut.trans before.storeOut⟩
  · rw [only.mode, rest]
    exact runningV
  · rw [only.geometry, geometry]
  · rw [only.apertures, rest, vIs]
    rfl
  · rw [only.sync, sync]
  · rw [only.overrun, rest, vIs]
    rfl
  · have at_w := start.gates w
    rw [stage, failsV, vIs] at at_w
    rw [only.gates]
    exact at_w
  · obtain ⟨p, grid, synced⟩ := some_
    have flying : u.commit.state = .inFlight := Classical.byContradiction fun not => by
      obtain ⟨_, _, _, panels⟩ := offered.ended not
      rcases panels p (by rw [geometry]; exact grid) with before | ⟨_, wanted⟩
      · rw [none_switched] at before
        cases before
      · exact synced (eq_of_beq wanted)
    obtain ⟨next, active, limit, limitStart, panels⟩ := offered.flying flying
    have left : ∀ p : PanelId, (isGrid u.geometry p && !u.commit.switched[p])
        = (isGrid s.geometry p && s.sync[p].state != .unsynced) := fun p => by
      rw [(panels p).1, switched, none_switched, only.geometry, geometry]
      unfold isUnsynced bne
      cases isGrid s.geometry p <;> cases s.sync[p].state == .unsynced <;> rfl
    refine ⟨flying, ?_, ⟨_, next.trans nextE, by rw [counter], fun w => ?_⟩, ?_, ?_, ?_, fun p grid => ?_⟩
    · rw [(offered.coherent.remaining flying).1]
      exact congrArg (fun g => List.countP g (List.finRange 32)) (funext left)
    · exact (start.records _ nextE w).trans (recordV w)
    · rw [active, start.active, vIs]
      rfl
    · rw [limit, commit, vIs]
      exact switchLimit_beside (by decide)
    · rw [limitStart, commit, vIs]
      rfl
    · have before : e.selection[p] = .active := by
        have idle_p := panels_active coherent idle p
        rw [rest, vIs]
        exact idle_p.1
      rw [(panels p).2, switched, before, grid, Bool.and_true]
      simp only [isUnsynced, beq_iff_eq]
  · have ended : u.commit.state ≠ .inFlight := fun flying => by
      obtain ⟨counted, positive⟩ := offered.coherent.remaining flying
      rw [counted] at positive
      obtain ⟨p, -, left⟩ := List.countP_pos_iff.1 positive
      rw [Bool.and_eq_true, ((offered.flying flying).2.2.2.2 p).1, switched, none_switched, only.geometry, geometry] at left
      have unsynced : isUnsynced s p = true := beq_iff_eq.2 (every p left.1)
      rw [unsynced, left.1] at left
      exact absurd left.2 (by decide)
    obtain ⟨state, -, next, -⟩ := offered.ended ended
    have active : { records := rn, epoch := v.epochCounter + 1 } = u.active := Option.some.inj (nextE.symm.trans next)
    refine ⟨state, next_none offered.coherent ended, ?_, fun w => ?_, fun p => ?_⟩
    · rw [← active, counter]
    · rw [← active]
      exact (start.records _ nextE w).trans (recordV w)
    · have panel := panels_active offered.coherent ended p
      rw [← active, counter] at panel
      exact panel

end Sys2Proof.CommitCommands
/-! What starting the sources afresh does (R143), and the PROOFS of O28 and O46: the SETUP command forces a commit, and the
switch limit ends one. -/

namespace Sys2Proof.ModeChanges

open Sys2Proof Sys2Proof.Machine Sys2Proof.Steps Sys2Proof.BlockInvariants Sys2Proof.Events Sys2Proof.Commits
  Sys2Proof.Failover Sys2Proof.Frames Sys2Proof.ControlWrites Sys2Proof.StorePort

/-! ## Evaluations of failover -/

/-- No source is LIVE or STALE, so that no failover and no failback is due (R145). -/
def NoneLiveOrStale (s : State) : Prop :=
  ∀ src : SourceId, s.cadence[src].state ≠ .live ∧ s.cadence[src].state ≠ .stale

/-- What evaluations of failover can do, for any sources. -/
structure EvaluationsMade (s u : State) : Prop where
  rest : ∃ a n g p m, u = { s with active := a, next := n, gates := g, poster := p, choices := m }
  epoch : u.active.epoch = s.active.epoch
  noNext : s.next = none → u.next = none
  grows : ∃ es, (∀ e ∈ es, e.kind = 9 ∨ e.kind = 10 ∨ e.kind = 11) ∧ PosterGrows es s u
  quiet : NoneLiveOrStale s → u.active = s.active ∧ u.gates = s.gates ∧ PosterGrows [] s u

theorem EvaluationsMade.refl (s : State) : EvaluationsMade s s :=
  ⟨⟨_, _, _, _, _, rfl⟩, rfl, id, ⟨[], fun _ mem => absurd mem List.not_mem_nil, .refl s⟩, fun _ => ⟨rfl, rfl, .refl s⟩⟩

theorem EvaluationsMade.trans {s t u : State} (h : EvaluationsMade s t) (k : EvaluationsMade t u) : EvaluationsMade s u := by
  obtain ⟨es, kinds, grows⟩ := h.grows
  obtain ⟨fs, kinds', grows'⟩ := k.grows
  obtain ⟨a, n, g, p, m, rest⟩ := h.rest
  obtain ⟨a', n', g', p', m', rest'⟩ := k.rest
  refine ⟨⟨a', n', g', p', m', by rw [rest', rest]⟩, k.epoch.trans h.epoch, fun none => k.noNext (h.noNext none),
    ⟨es ++ fs, fun e mem => (List.mem_append.1 mem).elim (kinds e) (kinds' e), grows.trans grows'⟩, fun none => ?_⟩
  have cadence : t.cadence = s.cadence := by rw [rest]
  obtain ⟨active, gates, quiet⟩ := h.quiet none
  obtain ⟨active', gates', quiet'⟩ := k.quiet (by unfold NoneLiveOrStale; rw [cadence]; exact none)
  exact ⟨active'.trans active, gates'.trans gates, quiet.then quiet'⟩

theorem cadenceOf_quiet {s : State} (none : NoneLiveOrStale s) (n : Nat) : (cadenceOf s n == .live) = false
    ∧ (cadenceOf s n == .stale) = false := by
  unfold cadenceOf
  split
  · exact ⟨beq_false_of_ne (none _).1, beq_false_of_ne (none _).2⟩
  · exact ⟨rfl, rfl⟩

theorem judge_quiet {s : State} (none : NoneLiveOrStale s) (r : LayoutRecord) : judge s r = .none := by
  have failover : ∀ a, failoverDue s r a = false := fun a => by
    unfold failoverDue
    rw [(cadenceOf_quiet none a).1, Bool.and_false]
  have failback : ∀ a, failbackDue s r a = false := fun a => by
    unfold failbackDue
    rw [(cadenceOf_quiet none _).1, Bool.and_false]
  unfold judge
  simp only [failover, failback]
  cases r.window.mode <;> cases r.window.alternate <;> simp

theorem due_quiet {s : State} (none : NoneLiveOrStale s) (only : Option SourceId) (r : LayoutRecord) :
    due only s r = .none := by
  unfold due
  rw [judge_quiet none, ite_self]

theorem kindOf_cases (m : Move) : kindOf m = 9 ∨ kindOf m = 10 ∨ kindOf m = 11 := by cases m <;> simp [kindOf]

theorem evaluateFailover_made (only : Option SourceId) (s : State) :
    EvaluationsMade s (evaluateFailover only true s) := by
  have on := evaluateFailover_on only true s
  generalize evaluateFailover only true s = u at on ⊢
  have active := active_evaluated on
  have gates := gates_evaluated on
  obtain ⟨ra, rn, g, p, m, rest⟩ := on.rest
  obtain ⟨es, hands, told⟩ := on.events
  have activeIs : u.active = { s.active with records := u.active.records } := by rw [rest]
  refine ⟨⟨_, _, g, p, m, rest⟩, by rw [activeIs], fun none => by rw [rest, none]; rfl,
    ⟨_, fun e mem => ?_, on.flags, hands⟩, fun none => ?_⟩
  · obtain ⟨w, listed, mem⟩ := List.mem_flatMap.1 mem
    obtain ⟨k, kind⟩ := (told w listed).kinds e mem
    rw [kind]
    exact kindOf_cases k
  · have noActive : ∀ w, dueActive only true s w = .none := fun w => due_quiet none only _
    have noNext : ∀ w, dueNext only s w = .none := fun w => by
      unfold dueNext
      cases nextRecordOf s w with
      | none => rfl
      | some r => exact due_quiet none only r
    have records : u.active.records = s.active.records := by
      ext i bound : 1
      have at_i := active ⟨i, bound⟩
      rw [noActive] at at_i
      exact at_i
    have silent : (List.finRange 64).flatMap es = [] := by
      refine List.flatMap_eq_nil_iff.2 fun w listed => List.eq_nil_iff_forall_not_mem.2 fun e mem => ?_
      obtain ⟨k, kind⟩ := (told w listed).kinds e mem
      have nothing := (told w listed).quiet k (by rw [noActive]; simp) (by rw [noNext]; simp)
      exact List.filter_eq_nil_iff.1 nothing e mem (by rw [kind, beq_self_eq_true])
    refine ⟨by rw [activeIs, records], ?_, on.flags, silent ▸ hands⟩
    ext i bound : 1
    have at_i := gates ⟨i, bound⟩
    unfold switchesAt at at_i
    rw [noActive, noNext] at at_i
    exact at_i

theorem evaluations_made (srcs : List SourceId) (s : State) :
    EvaluationsMade s (srcs.foldl (fun s src => evaluateFailover (some src) true s) s) :=
  foldl_keeps EvaluationsMade.refl EvaluationsMade.trans _ (fun s src => evaluateFailover_made (some src) s) srcs s

/-! ## The sources start afresh -/

/-- What making every ENABLED source AWAITING does (R143). -/
structure Awaited (s u : State) : Prop where
  cadence : ∀ src : SourceId, u.cadence[src] = if s.apertures[src].isSome = true then .zeroed .awaiting else s.cadence[src]
  rest : ∃ a n g p m c i, u = { s with
    active := a, next := n, gates := g, poster := p, choices := m, cadence := c, indicators := i }
  epoch : u.active.epoch = s.active.epoch
  noNext : s.next = none → u.next = none
  grows : ∃ es, (∀ e ∈ es, e.kind = 9 ∨ e.kind = 10 ∨ e.kind = 11) ∧ PosterGrows es s u
  quiet : SourcesCoherent s → u.active = s.active ∧ u.gates = s.gates ∧ PosterGrows [] s u

theorem setCadences_eq (f : SourceId → Cadence) (l : List SourceId) (s : State) : ∃ c p,
    l.foldl (fun s src => setCadence src (f src) s) s = { s with cadence := c, poster := p }
      ∧ PosterGrows [] s (l.foldl (fun s src => setCadence src (f src) s) s) := by
  induction l generalizing s with
  | nil => exact ⟨s.cadence, s.poster, rfl, .refl s⟩
  | cons src l ih =>
    obtain ⟨c, p, same, grows⟩ := ih (setCadence src (f src) s)
    exact ⟨c, p, same, (setCadence_grows src (f src) s).then grows⟩

theorem awaitAll_awaited (s : State) : Awaited s (awaitAll s) := by
  have set_ := cadence_setCadences (fun _ => .zeroed .awaiting) (enabledSources s) s
  obtain ⟨c, p, set, grows⟩ := setCadences_eq (fun _ => .zeroed .awaiting) (enabledSources s) s
  have folded : awaitAll s = evaluateIndicators ((enabledSources s).foldl (fun s src => evaluateFailover (some src) true s)
    ((enabledSources s).foldl (fun s src => setCadence src (.zeroed .awaiting) s) s)) := rfl
  rw [folded]
  generalize (enabledSources s).foldl (fun s src => setCadence src (.zeroed .awaiting) s) s = t at set_ set grows ⊢
  have made := evaluations_made (enabledSources s) t
  generalize (enabledSources s).foldl (fun s src => evaluateFailover (some src) true s) t = v at made ⊢
  obtain ⟨a, n, g, q, m, rest⟩ := made.rest
  obtain ⟨es, kinds, evGrows⟩ := made.grows
  have driven := evaluateIndicators_grows v
  obtain ⟨i, r, ind⟩ : ∃ i r, evaluateIndicators v = { v with indicators := i, poster := r } := ⟨_, _, rfl⟩
  generalize evaluateIndicators v = u at driven ind ⊢
  have listed : ∀ src : SourceId, src ∈ enabledSources s ↔ s.apertures[src].isSome = true := fun src => by
    simp [enabledSources]
  have cadence : ∀ src : SourceId, t.cadence[src]
      = if s.apertures[src].isSome = true then .zeroed .awaiting else s.cadence[src] := fun src => by
    rw [set_]
    simp only [listed]
  have same : u.cadence = t.cadence := by rw [ind, rest]
  refine ⟨fun src => by rw [same]; exact cadence src, ⟨a, n, g, r, m, c, i, by rw [ind, rest, set]⟩, ?_, fun none => ?_,
    ⟨es, kinds, (grows.trans evGrows).then driven⟩, fun coherent => ?_⟩
  · have epoch := made.epoch
    rw [ind]
    exact epoch.trans (by rw [set])
  · rw [ind]
    exact made.noNext (by rw [set]; exact none)
  · have quiet : NoneLiveOrStale t := fun src => by
      rw [cadence]
      split
      · exact ⟨by simp [Cadence.zeroed], by simp [Cadence.zeroed]⟩
      · next disabled =>
        have is : s.cadence[src].state = .disabled := by
          have enabled := coherent.enabled src
          rw [Bool.not_eq_true] at disabled
          rw [disabled] at enabled
          exact Classical.byContradiction fun not => by simpa using enabled.2 not
        rw [is]
        exact ⟨by simp, by simp⟩
    obtain ⟨active, gates, silent⟩ := made.quiet quiet
    refine ⟨?_, ?_, (grows.then silent).then driven⟩
    · rw [ind]
      exact active.trans (by rw [set])
    · rw [ind]
      exact gates.trans (by rw [set])

/-! ## A forced commit (O28) -/

theorem forceCommit_offers (y : State) : Offers .forced .forced (fun _ => true) 0 y (switchPanel .forced .forced) where
  idle p z _ not := by
    have notDue : canSwitch z p = false := not.resolve_left (by simp)
    unfold switchPanel
    rw [notDue]
    cases z.next <;> rfl
  switch p z _ _ _ := ⟨z.poster, rfl⟩

theorem forceCommit_idle {s : State} (none : s.next = none) : forceCommit s = s := by
  have same : ∀ (l : List PanelId), l.foldl (fun s p => switchPanel .forced .forced p s) s = s := fun l => by
    induction l with
    | nil => rfl
    | cons p l ih => rw [List.foldl_cons, switchPanel_idle none, ih]
  exact same _

/-- The last switch of an offer to every panel ends the commit. -/
theorem Offered.ends {end_ : CommitState} {k : Nat} {done : List PanelId} {y z : State}
    (h : Offered end_ (fun _ => true) k done y z) (all : ∀ p, p ∈ done) : z.commit.state ≠ .inFlight := fun flying => by
  obtain ⟨counted, positive⟩ := h.coherent.remaining flying
  have nothing : Machine.unswitched z = 0 := List.countP_eq_zero.2 fun p _ => by
    have panel := ((h.flying flying).2.2.2.2 p).1
    have listed : done.contains p = true := List.contains_iff_mem.2 (all p)
    rw [panel, h.only.geometry]
    unfold switchedBy
    rw [listed]
    cases isGrid y.geometry p <;> cases y.commit.switched[p] <;> simp
  omega

/-- Settles O28: the offer to every panel ends the commit, then the mode changes and the sources start afresh. -/
theorem setupCommandForcesCommit : Obligations.SetupCommandForcesCommit := by
  intro s f q writes coherent running
  obtain ⟨v, vIs⟩ : ∃ v, v = written s 0x100 [commandWord q 3] := ⟨_, rfl⟩
  have runningV : v.mode = .run := by rw [vIs]; exact running
  have coherentV : CommitCoherent v := by
    rw [vIs]
    exact ⟨coherent.next, coherent.running, coherent.remaining, coherent.panels, coherent.grid⟩
  have commitV : v.commit = s.commit := by rw [vIs]; rfl
  have nextV : v.next = s.next := by rw [vIs]; rfl
  obtain ⟨x, xIs⟩ : ∃ x, x = postEvent (evModeChanged .run .setup f.initiator q) (setMode .setup (forceCommit v)) := ⟨_, rfl⟩
  have action : commandSetup f.initiator q v
      = (awaitAll x, if s.commit.state = .inFlight then .forced else .done, noDetail) := by
    unfold commandSetup
    rw [runningV, xIs, commitV]
  have arrived := arrive_command (q := q) (code := 3) writes
  have is : ∀ n, commandAction f.initiator (3 : Byte).toNat q n v = commandSetup f.initiator q v := fun _ => rfl
  rw [commandDone, ← vIs, is, action] at arrived
  obtain ⟨keptF, idleF⟩ := forceCommit_commit coherentV
  have onlyF : SwitchOnly v (forceCommit v) :=
    foldl_keeps SwitchOnly.refl SwitchOnly.trans _ (fun s p => switchPanel_only .forced .forced p s) (List.finRange 32) v
  have forced : v.commit.state = .inFlight → ∃ done, (∀ p, p ∈ done)
      ∧ Offered .forced (fun _ => true) 0 done v (forceCommit v) :=
    offered_every (by decide) (forceCommit_offers v) coherentV
  have idle : v.commit.state ≠ .inFlight → forceCommit v = v := fun idle => forceCommit_idle (next_none coherentV idle)
  have noNext := next_none keptF idleF
  have panels := panels_active keptF idleF
  generalize forceCommit v = c at xIs keptF onlyF forced idle noNext panels
  obtain ⟨p, changed⟩ : ∃ p, x = { c with mode := .setup, poster := p } := ⟨_, xIs⟩
  have awaited := awaitAll_awaited x
  obtain ⟨a, n, g, r, m, cs, i, rest⟩ := awaited.rest
  have cadence := awaited.cadence
  have epoch := awaited.epoch
  have none := awaited.noNext
  generalize awaitAll x = u at rest arrived cadence epoch none
  rw [changed] at cadence epoch none
  have selection : u.selection = c.selection := by rw [rest, changed]
  have panelEpoch : u.panelEpoch = c.panelEpoch := by rw [rest, changed]
  have commit : u.commit = c.commit := by rw [rest, changed]
  refine ⟨u, congrArg Host.Outcome.next arrived, by rw [rest, changed], none noNext, fun l flying next => ?_,
    fun notFlying => ?_, fun src => ?_, ?_, ?_, ?_, ?_, ?_⟩
  · obtain ⟨done, all, offered⟩ := forced (by rw [commitV]; exact flying)
    have ended := Offered.ends offered all
    obtain ⟨state, -, moved, -⟩ := offered.ended ended
    have late := offered.late
    rw [Nat.zero_mul, Nat.zero_mul, Nat.add_zero, Nat.add_zero] at late
    have active : l = c.active := Option.some.inj ((nextV.trans next).symm.trans moved)
    rw [commit, state, offered.number, late, commitV, epoch, selection, panelEpoch, active]
    exact ⟨rfl, rfl, rfl, rfl, panels⟩
  · have same := idle (by rw [commitV]; exact notFlying)
    rw [commit, selection, same, vIs]
    refine ⟨rfl, ?_, rfl⟩
    rw [rest, changed, same, vIs]
    rfl
  · refine (cadence src).trans ?_
    show (if c.apertures[src].isSome = true then _ else c.cadence[src]) = _
    rw [onlyF.apertures, onlyF.cadence, vIs]
    rfl
  · have before : Untouched s v := by
      rw [vIs]
      constructor <;> rfl
    rw [rest, changed]
    exact ⟨onlyF.wallTime.trans before.wallTime, onlyF.ponrst.trans before.ponrst,
      onlyF.baseStrap.trans before.baseStrap, onlyF.prioStrap.trans before.prioStrap, onlyF.owners.trans before.owners,
      onlyF.tags.trans before.tags, onlyF.exhaustion.trans before.exhaustion,
      onlyF.lastGranted.trans before.lastGranted, onlyF.storeOut.trans before.storeOut⟩
  · rw [rest, changed]
    exact onlyF.geometry.trans (by rw [vIs]; rfl)
  · rw [rest, changed]
    exact onlyF.apertures.trans (by rw [vIs]; rfl)
  · rw [rest, changed]
    exact onlyF.sync.trans (by rw [vIs]; rfl)
  · rw [rest, changed]
    exact onlyF.overrun.trans (by rw [vIs]; rfl)

/-! ## The switch limit (O46) -/

theorem switchLate_offers (y : State) : Offers .done .done (fun _ => true) 1 y switchLate where
  idle p z _ not := by
    have notDue : canSwitch z p = false := not.resolve_left (by simp)
    unfold switchLate
    rw [notDue]
    rfl
  switch p z _ _ due := ⟨(reportLate p z).poster, by
    unfold switchLate
    rw [due]
    rfl⟩

/-- An own event that is not due leaves the part as it is. -/
theorem inService_notDue {s : State} (service : InService s) {f : State → State} (same : f s = s) : inService f s = s := by
  rw [inService_leaves service] <;> rw [same]

theorem untouched_of_switch {s u : State} (only : SwitchOnly s u) : Untouched s u :=
  ⟨only.wallTime, only.ponrst, only.baseStrap, only.prioStrap, only.owners, only.tags, only.exhaustion, only.lastGranted,
    only.storeOut⟩

/-- Settles O46: the offer to every panel ends the commit, and each panel still to switch is counted late. -/
theorem switchLimitCompletesCommit : Obligations.SwitchLimitCompletesCommit := by
  intro s service coherent
  refine ⟨fun notDue => congrArg Host.Outcome.next (inService_notDue service (by rw [notDue]; rfl)),
    fun l flying limit next => ?_⟩
  have due : switchLimitReached s = true := by
    unfold switchLimitReached
    rw [flying]
    exact decide_eq_true limit
  obtain ⟨done, all, offered⟩ := offered_every (by decide) (switchLate_offers s) coherent flying
  have expired : exec .switchLimitExpiry s = .next (serve (expireSwitchLimit s)) := by
    have served := inService_serves service fun s => if switchLimitReached s then expireSwitchLimit s else s
    rw [if_pos due] at served
    exact congrArg Host.Outcome.next served
  have folded : expireSwitchLimit s = (List.finRange 32).foldl (fun s p => switchLate p s) s := rfl
  rw [folded] at expired
  generalize (List.finRange 32).foldl (fun s p => switchLate p s) s = u at offered expired
  have only := offered.only
  have ended := Offered.ends offered all
  obtain ⟨state, remaining, moved, -⟩ := offered.ended ended
  have active : l = u.active := Option.some.inj (next.symm.trans moved)
  have late := offered.late
  rw [remaining, Nat.mul_zero, Nat.add_zero, Nat.one_mul] at late
  refine ⟨u, expired, state, remaining, late, offered.number, next_none offered.coherent ended, active.symm,
    untouched_of_switch only, only.mode, only.geometry, only.apertures, only.cadence, only.sync, ?_⟩
  rw [active]
  exact panels_active offered.coherent ended

end Sys2Proof.ModeChanges
/-! PROOF of O29: what a wall reset leaves on each block. -/

namespace Sys2Proof.WallResets

open Sys2Proof Sys2Proof.Machine Sys2Proof.Steps Sys2Proof.BlockInvariants Sys2Proof.Events Sys2Proof.Frames
  Sys2Proof.ControlWrites Sys2Proof.ModeChanges Sys2Proof.StorePort

/-! ## STAGE after some records have been blanked -/

theorem blankStage_words : blankStage = bytesOf (List.replicate 9 0) := by decide

/-- The staging records of these windows take their power-on values. -/
def blanked (ws : List WindowId) (m : Shadow) : Shadow :=
  ws.foldl (fun m w => shadowWriteBytes m (stageOffset w) blankStage) m

theorem blanked_cons (v : WindowId) (ws : List WindowId) (m : Shadow) :
    blanked (v :: ws) m = blanked ws (shadowWriteBytes m (stageOffset v) blankStage) := by
  unfold blanked
  rw [List.foldl_cons]

theorem stageWindow_blanked_other {v w : WindowId} (other : v ≠ w) (m : Shadow) :
    stageWindow (shadowWriteBytes m (stageOffset v) blankStage) w = stageWindow m w := by
  have apart : v.val ≠ w.val := fun same => other (Fin.ext same)
  have word : ∀ k, k ≤ 32 → shadowWord (shadowWriteBytes m (stageOffset v) blankStage) (stageOffset w + k)
      = shadowWord m (stageOffset w + k) := fun k small => by
    rw [blankStage_words]
    refine shadowWord_beside ?_
    rw [List.length_replicate]
    unfold stageOffset
    omega
  have first := word 0 (by decide)
  rw [Nat.add_zero] at first
  unfold stageWindow
  dsimp only
  rw [first, word 0x04 (by decide), word 0x08 (by decide), word 0x0C (by decide), word 0x10 (by decide),
    word 0x14 (by decide), word 0x18 (by decide), word 0x1C (by decide), word 0x20 (by decide)]

theorem stageWindow_blanked_same {m : Shadow} (wf : shadowWf m = true) (w : WindowId) :
    stageWindow (shadowWriteBytes m (stageOffset w) blankStage) w = Window.blank := by
  have word : ∀ k, k < 9 → shadowWord (shadowWriteBytes m (stageOffset w) blankStage) (stageOffset w + 4 * k) = 0 :=
    fun k small => by
      have within : k < (List.replicate 9 (0 : Word)).length := by rw [List.length_replicate]; exact small
      rw [blankStage_words, shadowWord_written wf within, List.getElem_replicate]
  have first := word 0 (by decide)
  rw [Nat.mul_zero, Nat.add_zero] at first
  unfold stageWindow
  dsimp only
  rw [first, word 1 (by decide), word 2 (by decide), word 3 (by decide), word 4 (by decide), word 5 (by decide),
    word 6 (by decide), word 7 (by decide), word 8 (by decide)]
  decide

theorem stageWindow_blanked_beside {w : WindowId} (ws : List WindowId) (m : Shadow) (beside : w ∉ ws) :
    stageWindow (blanked ws m) w = stageWindow m w := by
  induction ws generalizing m with
  | nil => rfl
  | cons v ws ih =>
    simp only [List.mem_cons, not_or] at beside
    rw [blanked_cons, ih _ beside.2, stageWindow_blanked_other (Ne.symm beside.1)]

theorem stageWindow_blanked {w : WindowId} (ws : List WindowId) {m : Shadow} (wf : shadowWf m = true) (mem : w ∈ ws) :
    stageWindow (blanked ws m) w = Window.blank := by
  induction ws generalizing m with
  | nil => cases mem
  | cons v ws ih =>
    rw [blanked_cons]
    by_cases later : w ∈ ws
    · exact ih (shadowWriteBytes_wf m (stageOffset v) blankStage wf) later
    · obtain rfl : w = v := (List.mem_cons.1 mem).resolve_right later
      rw [stageWindow_blanked_beside ws _ later, stageWindow_blanked_same wf]

/-- A control word below the staging records reads as before. -/
theorem shadowRead_blanked (ws : List WindowId) (m : Shadow) {x : Nat} (below : x < 0x2000) :
    shadowRead (blanked ws m) x = shadowRead m x := by
  induction ws generalizing m with
  | nil => rfl
  | cons v ws ih =>
    rw [blanked_cons, ih]
    exact shadowRead_writeBytes_other m _ _ _ (.inl (by unfold stageOffset; omega))

/-! ## The commit and the tags -/

/-- What abandoning the commit and quarantining the tags do (R20, R117). -/
structure Stopped (s b : State) : Prop where
  rest : ∃ c t e p m, b = { s with commit := c, tags := t, exhaustion := e, poster := p, choices := m }
  hands : ∃ es, es.length ≤ 2 ∧ Hands es s b
  commit : b.commit.state = if s.commit.state = .inFlight then .abandoned else s.commit.state

theorem abandonCommit_eq (s : State) : ∃ c p, abandonCommit s = { s with commit := c, poster := p }
    ∧ (c.state = if s.commit.state = .inFlight then .abandoned else s.commit.state)
    ∧ ∃ es, es.length ≤ 1 ∧ Hands es s (abandonCommit s) := by
  unfold abandonCommit
  dsimp only
  split
  · obtain ⟨x, xIs⟩ : ∃ x, x = setCommit { s.commit with state := .abandoned } s := ⟨_, rfl⟩
    have quiet : Hands [] s x := by
      rw [xIs]
      exact .of_stays rfl rfl rfl rfl
    have told := hands_postEvent (evCommitAbandoned s.commit.number s.commit.remaining) x
    have after : ∀ c, Hands [] (postEvent (evCommitAbandoned s.commit.number s.commit.remaining) x)
        { postEvent (evCommitAbandoned s.commit.number s.commit.remaining) x with commit := c } := fun c =>
      .of_stays rfl rfl rfl rfl
    rw [← xIs]
    refine ⟨{ s.commit with
        state := .abandoned, switched := Vector.replicate 32 false, changed := Vector.replicate 64 false, late := 0 },
      (postEvent (evCommitAbandoned s.commit.number s.commit.remaining) x).poster, ?_, rfl, [_], Nat.le_refl 1, (quiet.quiet_trans told).trans_quiet (after _)⟩
    rw [xIs]
    rfl
  · exact ⟨s.commit, s.poster, rfl, rfl, [], Nat.zero_le 1, .refl s⟩

theorem quarantineAll_eq (s : State) : ∃ t e p, quarantineAll s = { s with tags := t, exhaustion := e, poster := p }
    ∧ ∃ es, es.length ≤ 1 ∧ Hands es s (quarantineAll s) := by
  obtain ⟨x, same, t, p, is, quiet⟩ : ∃ x, quarantineAll s = reportExhausted x
      ∧ ∃ t p, x = { s with tags := t, poster := p } ∧ Hands [] s x := ⟨_, rfl, _, _, rfl, .of_stays rfl rfl rfl rfl⟩
  rw [same]
  unfold reportExhausted
  split
  · obtain ⟨y, yIs⟩ : ∃ y, y = { x with exhaustion := .spent } := ⟨_, rfl⟩
    have spent : Hands [] x y := by
      rw [yIs]
      exact .of_stays rfl rfl rfl rfl
    rw [← yIs]
    refine ⟨t, .spent, (postEvent evTagsExhausted y).poster, ?_, [_], Nat.le_refl 1,
      (quiet.quiet_trans spent).quiet_trans (hands_postEvent evTagsExhausted y)⟩
    rw [yIs, is]
    rfl
  · exact ⟨t, s.exhaustion, p, is, [], Nat.zero_le 1, quiet⟩

theorem stopped (s : State) : Stopped s (inEitherOrder abandonCommit quarantineAll s) := by
  have quarantined : ∀ s, ∃ t e p, quarantineAll s = { s with tags := t, exhaustion := e, poster := p } := fun s => by
    obtain ⟨t, e, p, same, -⟩ := quarantineAll_eq s
    exact ⟨t, e, p, same⟩
  obtain ⟨y, yIs⟩ : ∃ y, y = { s with choices := s.choices + 1 } := ⟨_, rfl⟩
  have counted : Hands [] s y := by
    rw [yIs]
    exact .of_stays rfl rfl rfl rfl
  unfold inEitherOrder
  dsimp only
  rw [← yIs]
  split
  · obtain ⟨c, p, abandoned, state, es, few, hands⟩ := abandonCommit_eq y
    generalize abandonCommit y = z at abandoned hands ⊢
    obtain ⟨t, e, q, quarantined, fs, few', hands'⟩ := quarantineAll_eq z
    generalize quarantineAll z = b at quarantined hands' ⊢
    refine ⟨⟨c, t, e, q, s.choices + 1, by rw [quarantined, abandoned, yIs]⟩,
      ⟨es ++ fs, by rw [List.length_append]; omega, counted.quiet_trans (hands.trans hands')⟩, ?_⟩
    rw [quarantined, abandoned]
    rw [yIs] at state
    exact state
  · obtain ⟨t, e, q, quarantined, es, few, hands⟩ := quarantineAll_eq y
    generalize quarantineAll y = z at quarantined hands ⊢
    obtain ⟨c, p, abandoned, state, fs, few', hands'⟩ := abandonCommit_eq z
    generalize abandonCommit z = b at abandoned hands' ⊢
    refine ⟨⟨c, t, e, p, s.choices + 1, by rw [abandoned, quarantined, yIs]⟩,
      ⟨es ++ fs, by rw [List.length_append]; omega, counted.quiet_trans (hands.trans hands')⟩, ?_⟩
    rw [abandoned]
    rw [quarantined, yIs] at state
    exact state

/-! ## The ownership table -/

theorem isKept_iff (s : State) (w : WindowId) : isKept s w = true ↔ ∃ o, s.owners[w] = .owned o true := by
  unfold isKept
  cases is : s.owners[w] with
  | free => simp
  | owned o priority => cases priority <;> simp

theorem isKept_congr {s t : State} {w : WindowId} (same : t.owners[w] = s.owners[w]) : isKept t w = isKept s w := by
  unfold isKept
  rw [same]

theorem ownersReset_of (l : List WindowId) (s : State) : ∃ ow p,
    l.foldl (fun s w => if isKept s w then s else setOwner w .free s) s = { s with owners := ow, poster := p }
      ∧ p.events = s.poster.events ∧ p.allocation = s.poster.allocation
      ∧ ∀ w : WindowId, ow[w] = if w ∈ l ∧ isKept s w = false then .free else s.owners[w] := by
  induction l generalizing s with
  | nil => exact ⟨s.owners, s.poster, rfl, rfl, rfl, fun w => by simp⟩
  | cons v l ih =>
    rw [List.foldl_cons]
    by_cases kept : isKept s v = true
    · obtain ⟨ow, p, same, events, allocation, owners⟩ := ih s
      rw [if_pos kept]
      refine ⟨ow, p, same, events, allocation, fun w => ?_⟩
      rw [owners]
      by_cases here : w = v
      · subst here
        simp [kept]
      · simp [here]
    · obtain ⟨ow, p, same, events, allocation, owners⟩ := ih (setOwner v .free s)
      rw [if_neg kept]
      have put_v : ∀ w : WindowId, (setOwner v .free s).owners[w] = if v = w then .free else s.owners[w] :=
        fun w => Failover.put_get s.owners v w .free
      refine ⟨ow, p, same, events, allocation, fun w => ?_⟩
      rw [owners]
      by_cases here : v = w
      · subst here
        rw [put_v, if_pos rfl, ite_self, if_pos ⟨List.mem_cons_self, Bool.eq_false_iff.2 kept⟩]
      · have at_w : (setOwner v .free s).owners[w] = s.owners[w] := by rw [put_v, if_neg here]
        rw [isKept_congr at_w, at_w]
        simp [Ne.symm here]

theorem resetOwners_eq (s : State) : ∃ ow p, resetOwners s = { s with owners := ow, poster := p }
    ∧ p.events = s.poster.events ∧ p.allocation = s.poster.allocation
    ∧ ∀ w : WindowId, ow[w] = if isKept s w = true then s.owners[w] else .free := by
  obtain ⟨ow, p, same, events, allocation, owners⟩ := ownersReset_of (List.finRange 64) s
  refine ⟨ow, p, same, events, allocation, fun w => ?_⟩
  rw [owners]
  cases isKept s w <;> simp [List.mem_finRange]

/-! ## The whole reset -/

/-- The windows that a wall reset does not keep. -/
def unkept (s : State) : List WindowId := (List.finRange 64).filter fun w => !isKept s w

/-- The ACTIVE layout after a wall reset (R66). -/
def resetActive (s : State) : Layout :=
  { records := Vector.ofFn fun w : Fin 64 => if isKept s w then s.active.records[w] else LayoutRecord.blank
    epoch := s.epochCounter + 1 }

/-- What a wall reset has made of `s` before it is reported. -/
structure Cleared (s x : State) : Prop where
  rest : ∃ c t ex p m ow cs ind irq ch0 ch1, x = { s with
    queue := [], holds := [], overrun := Vector.replicate 32 false
    ingestOut := s.ingestOut ++ s.holds.map fun h => responseTo h.txn .done
    next := none, shadow := blanked (unkept s) s.shadow, active := resetActive s, epochCounter := s.epochCounter + 1
    selection := Vector.replicate 32 .active, panelEpoch := Vector.replicate 32 (s.epochCounter + 1)
    gates := Vector.replicate 64 .armed, exposure := [], marking := [], fillCount := Vector.replicate 64 0
    channel0 := ch0, channel1 := ch1, commit := c, tags := t, exhaustion := ex, poster := p, choices := m, owners := ow
    cadence := cs, indicators := ind, irq := irq }
  commit : x.commit.state = if s.commit.state = .inFlight then .abandoned else s.commit.state
  owners : ∀ w : WindowId, x.owners[w] = if isKept s w = true then s.owners[w] else .free
  cadence : ∀ src : SourceId, x.cadence[src] = if s.apertures[src].isSome = true then .zeroed .awaiting else s.cadence[src]
  fills : unread x ≤ unread s + 2

/-- The last step before the report of a wall reset. -/
def cleared (s : State) : State :=
  resetPoster (awaitAll (resetOwners (resetFills (resetLayouts (resetQueue (inEitherOrder abandonCommit quarantineAll s))))))

theorem wallReset_eq (e : Event) (s : State) : Machine.wallReset e s = postEvent e (cleared s) := rfl

theorem shadowWord_blanked (ws : List WindowId) (m : Shadow) {x : Nat} (below : x + 4 ≤ 0x2000) :
    shadowWord (blanked ws m) x = shadowWord m x := by
  unfold shadowWord
  rw [shadowRead_blanked ws m (by omega), shadowRead_blanked ws m (by omega), shadowRead_blanked ws m (by omega),
    shadowRead_blanked ws m (by omega)]

theorem unread_congr {s t : State} (index : consumerIndex t.shadow = consumerIndex s.shadow)
    (allocation : t.poster.allocation = s.poster.allocation) : unread t = unread s := by
  unfold unread unreadOf
  rw [index, allocation]

theorem cleared_of {s : State} (coherent : SourcesCoherent s) : Cleared s (cleared s) := by
  have stop := stopped s
  unfold cleared
  generalize inEitherOrder abandonCommit quarantineAll s = b at stop ⊢
  obtain ⟨c, t, ex, p, m, rest⟩ := stop.rest
  obtain ⟨es, few, hands⟩ := stop.hands
  have held := unread_le hands
  have keptIs : ∀ w, isKept b w = isKept s w := fun w => isKept_congr (by rw [rest])
  have unkeptIs : (List.finRange 64).filter (fun w => !isKept b w) = unkept s := by
    unfold unkept
    simp only [keptIs]
  have activeIs : (Vector.ofFn fun w : Fin 64 => if isKept b w then b.active.records[w] else LayoutRecord.blank)
      = (resetActive s).records := by
    unfold resetActive
    simp only [keptIs]
    rw [rest]
  obtain ⟨r, rIs, r_events, r_allocation⟩ : ∃ r, resetFills (resetLayouts (resetQueue b)) = r
      ∧ r.poster.events = b.poster.events ∧ r.poster.allocation = b.poster.allocation := ⟨_, rfl, rfl, rfl⟩
  have layouts : ∃ q ch0 ch1, r = { b with
      queue := [], holds := [], overrun := Vector.replicate 32 false
      ingestOut := b.ingestOut ++ b.holds.map fun h => responseTo h.txn .done
      next := none, shadow := blanked (unkept s) b.shadow
      active := { records := (resetActive s).records, epoch := b.epochCounter + 1 }, epochCounter := b.epochCounter + 1
      selection := Vector.replicate 32 .active, panelEpoch := Vector.replicate 32 (b.epochCounter + 1)
      gates := Vector.replicate 64 .armed, exposure := [], marking := [], fillCount := Vector.replicate 64 0
      channel0 := ch0, channel1 := ch1, poster := q } := by
    rw [← unkeptIs, ← activeIs, ← rIs]
    exact ⟨_, _, _, rfl⟩
  obtain ⟨q, ch0, ch1, layouts⟩ := layouts
  rw [rIs]
  obtain ⟨ow, q', ownersIs, o_events, o_allocation, owners⟩ := resetOwners_eq r
  generalize resetOwners r = o at ownersIs ⊢
  have coherentO : SourcesCoherent o := by
    rw [ownersIs, layouts, rest]
    exact ⟨coherent.enabled, coherent.disjoint⟩
  have awaited := awaitAll_awaited o
  generalize awaitAll o = a at awaited ⊢
  obtain ⟨_, n, g, q'', m', cs, ind, awaitedIs⟩ := awaited.rest
  obtain ⟨activeA, gatesA, quiet⟩ := awaited.quiet coherentO
  have noNext := awaited.noNext (by rw [ownersIs, layouts])
  obtain ⟨z, i, posted, z_allocation⟩ : ∃ z i, resetPoster a = { a with poster := z, irq := i }
      ∧ z.allocation = a.poster.allocation := ⟨_, _, rfl, rfl⟩
  rw [posted]
  have awaitedAll : a = { o with next := none, poster := q'', choices := m', cadence := cs, indicators := ind } := by
    have nextN : n = none := by
      rw [awaitedIs] at noNext
      exact noNext
    rw [awaitedIs] at activeA gatesA
    rw [awaitedIs]
    subst nextN
    dsimp only at activeA gatesA
    rw [activeA, gatesA]
  refine ⟨⟨c, t, ex, z, m', ow, cs, ind, i, ch0, ch1, ?_⟩, ?_, fun w => ?_, fun src => ?_, ?_⟩
  · rw [awaitedAll, ownersIs, layouts, rest]
    rfl
  · have commit := stop.commit
    rw [awaitedAll, ownersIs, layouts]
    exact commit
  · have keptR : isKept r w = isKept s w := isKept_congr (by rw [layouts, rest])
    have at_w := owners w
    rw [keptR] at at_w
    rw [awaitedAll, ownersIs]
    exact at_w.trans (by rw [layouts, rest])
  · have at_src := awaited.cadence src
    rw [ownersIs, layouts, rest] at at_src
    exact at_src
  · have index : consumerIndex o.shadow = consumerIndex b.shadow := by
      rw [ownersIs, layouts]
      exact shadowRead_blanked _ _ (by decide)
    have before : unread o = unread b := unread_congr index (by rw [ownersIs]; exact o_allocation.trans r_allocation)
    have waits := unread_le quiet.hands
    have same : unread { a with poster := z, irq := i } = unread a := unread_congr rfl z_allocation
    rw [List.length_nil, Nat.add_zero] at waits
    rw [same]
    omega

/-- Settles O29: block by block, before the report. -/
theorem wallResetClearsTheWall : Obligations.WallResetClearsTheWall := by
  intro s coherent
  refine ⟨fun v e is => ?_, fun running => ?_, fun reset => ?_, fun f q writes => ?_⟩
  · rw [wallReset_eq] at is
    have tags := FillResets.tags_wallReset e s
    rw [wallReset_eq, ← is] at tags
    obtain ⟨⟨c, t, ex, p, m, ow, cs, ind, irq, ch0, ch1, rest⟩, commit, owners, cadence, room⟩ := cleared_of coherent
    have hands := hands_postEvent e (cleared s)
    obtain ⟨q, same⟩ : ∃ q, v = { cleared s with poster := q } := ⟨_, is⟩
    rw [← is] at hands
    generalize cleared s = x at rest commit owners cadence room hands same
    have stage : ∀ w, stageWindow v.shadow w = stageWindow (blanked (unkept s) s.shadow) w := fun w => by rw [same, rest]
    have activeIs : ∀ w : WindowId, v.active.records[w]
        = if isKept s w then s.active.records[w] else LayoutRecord.blank := fun w => by
      rw [same, rest]
      exact Vector.getElem_ofFn w.isLt
    have ownersIs : ∀ w : WindowId, v.owners[w] = if isKept s w = true then s.owners[w] else .free := fun w => by
      rw [same]
      exact owners w
    have listed : ∀ w, w ∈ unkept s ↔ isKept s w = false := fun w => by simp [unkept, List.mem_finRange]
    refine ⟨by rw [same, rest], by rw [same, rest], fun src => ?_, by rw [same, rest], fun tag => ?_, by rw [same, rest],
      by rw [same, rest], by rw [same, rest]; rfl, fun p => ?_, fun w => ?_, fun w o owned => ?_, fun w other => ?_,
      by rw [same, rest], by rw [same, rest], fun kind enabled few => ?_, ?_, fun src => ?_, ?_, ?_, ?_, ?_, ?_, ?_, ?_⟩
    · rw [same, rest]
      exact Vector.getElem_replicate src.isLt
    · rw [tags]
      show (Vector.map _ _)[tag] = _
      exact Vector.getElem_map _ tag.isLt
    · rw [same, rest]
      exact ⟨Vector.getElem_replicate p.isLt, Vector.getElem_replicate p.isLt⟩
    · rw [same, rest]
      exact ⟨Vector.getElem_replicate w.isLt, Vector.getElem_replicate w.isLt⟩
    · have kept : isKept s w = true := (isKept_iff s w).2 ⟨o, owned⟩
      rw [ownersIs, activeIs, kept, stage]
      refine ⟨owned, rfl, stageWindow_blanked_beside _ _ fun mem => ?_⟩
      rw [(listed w).1 mem] at kept
      cases kept
    · have free : isKept s w = false := Bool.eq_false_iff.2 fun kept => other ((isKept_iff s w).1 kept)
      rw [ownersIs, activeIs, free, stage]
      exact ⟨rfl, rfl, fun wf => stageWindow_blanked _ wf ((listed w).2 free)⟩
    · have mask : eventEnabled x.shadow e.kind = true := by
        rw [rest, kind]
        unfold eventEnabled at enabled ⊢
        rw [← enabled]
        exact congrArg (fun word : Word => word.getLsbD 21) (shadowWord_blanked _ _ (by decide))
      obtain ⟨r, events, tells⟩ := single_handed hands mask (by omega)
      obtain ⟨k, detail, subject, initiator, time, extra⟩ := of_bare tells
      refine ⟨r, by rw [events, List.getLast?_concat], ?_, detail, initiator, ?_, extra⟩
      · rw [k, kind]
        rfl
      · rw [time, rest]
    · rw [same]
      exact commit
    · rw [same]
      exact cadence src
    all_goals rw [same, rest]
  · show Host.Outcome.next (inService _ s) = _
    unfold inService
    rw [running, if_neg Bool.false_ne_true]
  · show Host.Outcome.next (inService _ s) = _
    unfold inService
    rw [reset, if_pos rfl]
  · have arrived := arrive_command (q := q) (code := 4) writes
    have action : ∀ n v, commandAction f.initiator (4 : Byte).toNat q n v = commandWallReset f.initiator q v :=
      fun _ _ => rfl
    have commit : (written s 0x100 [commandWord q 4]).commit = s.commit := rfl
    rw [commandDone, action, commandWallReset, commit] at arrived
    exact congrArg Host.Outcome.next arrived

end Sys2Proof.WallResets
/-! PROOF of O27: the RUN command. -/

namespace Sys2Proof.RunCommands

open Sys2Proof Sys2Proof.Machine Sys2Proof.Steps Sys2Proof.BlockInvariants Sys2Proof.Events Sys2Proof.Frames
  Sys2Proof.Commits Sys2Proof.ClaimRequests Sys2Proof.ControlWrites Sys2Proof.ModeChanges

/-! ## The latch of the sync records -/

/-- Whether a latch makes a panel's sync record UNSYNCED (R27). -/
def resyncs (old new : Geometry) (p : PanelId) : Bool :=
  if isGrid old p && isGrid new p then panelMoved old new p else isGrid old p != isGrid new p

/-- A panel's sync record after a latch. -/
def latchedRecord (old new : Geometry) (p : PanelId) (r : SyncRecord) : SyncRecord :=
  if resyncs old new p then { r with state := .unsynced } else r

/-- The event of a panel at a latch: it stays a grid panel, and its record is no longer that of its frame buffer (R27). -/
def latchEvents (old new : Geometry) (sync : Vector SyncRecord 32) (p : PanelId) : List Event :=
  if isGrid old p && isGrid new p && panelMoved old new p && sync[p].state != .unsynced then
    [evPanelUnsynced p 2 sync[p].state sync[p].lastRead]
  else []

/-- What the latch does to the records of these panels. -/
structure SyncsLatched (old new : Geometry) (l : List PanelId) (s t : State) : Prop where
  rest : ∃ sy q, t = { s with sync := sy, poster := q }
  sync : ∀ p : PanelId, t.sync[p] = if p ∈ l then latchedRecord old new p s.sync[p] else s.sync[p]
  flagged : ∀ p : PanelId, t.sync[p].state ≠ s.sync[p].state → .panel p ∈ t.poster.flags
  grows : PosterGrows (l.flatMap (latchEvents old new s.sync)) s t

theorem latched_nothing {old new : Geometry} {p : PanelId} {s : State} (record : latchedRecord old new p s.sync[p] = s.sync[p])
    (silent : latchEvents old new s.sync p = []) : SyncsLatched old new [p] s s where
  rest := ⟨_, _, rfl⟩
  sync q := by
    split
    · next mem =>
      obtain rfl := List.mem_singleton.1 mem
      exact record.symm
    · rfl
  flagged p changed := absurd rfl changed
  grows := by
    rw [List.flatMap_cons, silent, List.flatMap_nil, List.append_nil]
    exact .refl s

theorem setSync_put (p q : PanelId) (r : SyncRecord) (s : State) :
    (setSync p r s).sync[q] = if q ∈ [p] then r else s.sync[q] := by
  refine (Failover.put_get s.sync p q r).trans ?_
  simp only [List.mem_singleton, eq_comm]

theorem setSync_flagged (p q : PanelId) (r : SyncRecord) (s : State) (changed : (setSync p r s).sync[q].state ≠ s.sync[q].state) :
    .panel q ∈ (setSync p r s).poster.flags := by
  rw [setSync_put] at changed
  split at changed
  · next mem =>
    obtain rfl := List.mem_singleton.1 mem
    exact mem_flaggedIf _ _ (bne_iff_ne.2 (Ne.symm changed))
  · exact absurd rfl changed

theorem setSync_grows (p : PanelId) (r : SyncRecord) (s : State) : PosterGrows [] s (setSync p r s) :=
  ⟨Indicators.flags_flaggedIf _ _ _, .of_stays rfl rfl rfl rfl⟩

/-- A record that is set as the latch has it, with what is reported afterwards. -/
theorem latched_set {old new : Geometry} {p : PanelId} {s t : State} {r : SyncRecord}
    (record : latchedRecord old new p s.sync[p] = r) (rest : ∃ q, t = { setSync p r s with poster := q })
    (grows : PosterGrows (latchEvents old new s.sync p) (setSync p r s) t) : SyncsLatched old new [p] s t := by
  obtain ⟨q, rest⟩ := rest
  have sync : t.sync = (setSync p r s).sync := by rw [rest]
  refine ⟨⟨(setSync p r s).sync, q, rest⟩, fun q => ?_, fun q changed => ?_, ?_⟩
  · rw [sync, setSync_put]
    split
    · next mem =>
      obtain rfl := List.mem_singleton.1 mem
      exact record.symm
    · rfl
  · rw [sync] at changed
    exact grows.flags (setSync_flagged p q r s changed)
  · rw [List.flatMap_cons, List.flatMap_nil, List.append_nil]
    exact (setSync_grows p r s).trans grows

/-- A panel that is a grid panel in one geometry alone. -/
theorem latched_flagged {old new : Geometry} {p : PanelId} {s : State} (differ : isGrid old p ≠ isGrid new p) :
    SyncsLatched old new [p] s (flag (.panel p) (setSync p { s.sync[p] with state := .unsynced } s)) := by
  have notBoth : (isGrid old p && isGrid new p) = false := by
    revert differ
    cases isGrid old p <;> cases isGrid new p <;> simp
  have record : latchedRecord old new p s.sync[p] = { s.sync[p] with state := .unsynced } := by
    unfold latchedRecord resyncs
    rw [notBoth, if_neg Bool.false_ne_true, bne_iff_ne.2 differ, if_pos rfl]
  have silent : latchEvents old new s.sync p = [] := by
    unfold latchEvents
    rw [notBoth, Bool.false_and, Bool.false_and]
    rfl
  refine latched_set record ⟨_, rfl⟩ ?_
  rw [silent]
  exact ⟨Indicators.flags_flaggedIf _ _ _, .of_stays rfl rfl rfl rfl⟩

/-- The latch of one panel, with no commit in flight. -/
theorem latchSync_latched (old new : Geometry) (p : PanelId) {s : State} (none : s.next = none) :
    SyncsLatched old new [p] s (latchSync old new p s) := by
  unfold latchSync
  cases before : isGrid old p <;> cases after : isGrid new p
  · refine latched_nothing ?_ ?_
    · simp [latchedRecord, resyncs, before, after]
    · simp [latchEvents, before]
  · exact latched_flagged (by rw [before, after]; decide)
  · exact latched_flagged (by rw [before, after]; decide)
  · cases moved : panelMoved old new p with
    | false =>
      refine latched_nothing ?_ ?_
      · simp [latchedRecord, resyncs, before, after, moved]
      · simp [latchEvents, moved]
    | true =>
      have record : latchedRecord old new p s.sync[p] = { s.sync[p] with state := .unsynced } := by
        simp [latchedRecord, resyncs, before, after, moved]
      dsimp only
      rw [if_pos rfl]
      unfold becomeUnsynced
      by_cases unsynced : s.sync[p].state = .unsynced
      · rw [if_pos unsynced]
        refine latched_nothing (record.trans ?_) ?_
        · rw [← unsynced]
        · unfold latchEvents
          rw [unsynced, bne_self_eq_false, Bool.and_false]
          rfl
      · have told : latchEvents old new s.sync p = [evPanelUnsynced p 2 s.sync[p].state s.sync[p].lastRead] := by
          unfold latchEvents
          rw [before, after, moved, bne_iff_ne.2 unsynced]
          rfl
        rw [if_neg unsynced]
        unfold switchOnTime
        rw [switchPanel_idle]
        · refine latched_set record ⟨_, rfl⟩ ?_
          rw [told]
          exact postEvent_grows _ _
        · exact none

theorem SyncsLatched.next {old new : Geometry} {l : List PanelId} {s t : State} (h : SyncsLatched old new l s t) :
    t.next = s.next := by
  obtain ⟨_, _, rest⟩ := h.rest
  rw [rest]

/-- The latch of several panels. -/
theorem latchSyncs_latched (old new : Geometry) (l : List PanelId) (nodup : l.Nodup) {s : State} (none : s.next = none) :
    SyncsLatched old new l s (l.foldl (fun s p => latchSync old new p s) s) := by
  induction l generalizing s with
  | nil => exact ⟨⟨_, _, rfl⟩, fun p => by simp, fun p changed => absurd rfl changed, .refl s⟩
  | cons p l ih =>
    obtain ⟨fresh, nodup⟩ := List.nodup_cons.1 nodup
    have first := latchSync_latched old new p none
    rw [List.foldl_cons]
    generalize latchSync old new p s = m at first ⊢
    have others := ih nodup (first.next.trans none)
    generalize l.foldl (fun s p => latchSync old new p s) m = t at others ⊢
    obtain ⟨sy, q, rest⟩ := first.rest
    obtain ⟨sy', q', rest'⟩ := others.rest
    have apart : ∀ r ∈ l, m.sync[r] = s.sync[r] := fun r mem => by
      have other : r ∉ [p] := fun same => fresh (by rw [← List.mem_singleton.1 same]; exact mem)
      rw [first.sync, if_neg other]
    have events : l.flatMap (latchEvents old new m.sync) = l.flatMap (latchEvents old new s.sync) :=
      congrArg List.flatten (List.map_congr_left fun r mem => by
        unfold latchEvents
        rw [apart r mem])
    refine ⟨⟨sy', q', by rw [rest', rest]⟩, fun r => ?_, fun r changed => ?_, ?_⟩
    · rw [others.sync]
      by_cases later : r ∈ l
      · rw [if_pos later, apart r later, if_pos (List.mem_cons_of_mem p later)]
      · rw [if_neg later, first.sync]
        have same : r ∈ [p] ↔ r ∈ p :: l := by simp [later]
        simp only [same]
    · by_cases now : t.sync[r].state = m.sync[r].state
      · rw [now] at changed
        exact others.grows.flags (first.flagged r changed)
      · exact others.flagged r now
    · have grows := first.grows.trans others.grows
      rw [events, List.flatMap_cons, List.flatMap_nil, List.append_nil] at grows
      exact grows

/-! ## The fill lists -/

/-- Emptying both lists brings every pending-fill count to 0 (R131). -/
theorem clearFills_eq {s : State} (coherent : FillCoherent s) : ∃ p, clearFills s = { s with
      exposure := [], marking := [], fillCount := Vector.replicate 64 0, channel0 := cancelled s.channel0
      channel1 := cancelled s.channel1, poster := p } ∧ PosterGrows [] s (clearFills s) := by
  have falls := lowerCauses_falls s.exposure { s with exposure := [], marking := [] }
  have zero : ∀ w : WindowId, (lowerCauses s.exposure { s with exposure := [], marking := [] }).fillCount[w] = 0 := by
    intro w
    rw [Fills.lowerCauses_count]
    show s.fillCount[w] - _ = 0
    rw [(coherent.counts w).1]
    exact Nat.sub_self _
  have same : clearFills s = flag .fills { lowerCauses s.exposure { s with exposure := [], marking := [] } with
    channel0 := cancelled (lowerCauses s.exposure { s with exposure := [], marking := [] }).channel0
    channel1 := cancelled (lowerCauses s.exposure { s with exposure := [], marking := [] }).channel1 } := rfl
  rw [same]
  generalize lowerCauses s.exposure { s with exposure := [], marking := [] } = t at falls zero
  have empty : t.fillCount = Vector.replicate 64 0 := by
    refine Vector.ext fun i small => ?_
    rw [Vector.getElem_replicate]
    exact zero ⟨i, small⟩
  have flags : s.poster.flags ⊆ t.poster.flags := fun i mem => (falls.flags i).2 (.inl mem)
  have state := falls.state
  refine ⟨(flag .fills t).poster, ?_, fun i mem => Indicators.flags_flaggedIf _ _ _ (flags mem), ?_⟩
  · rw [state, empty]
    rfl
  · rw [state]
    exact .of_stays rfl rfl rfl rfl

/-! ## The command (O27) -/

theorem geometry_written (m : Shadow) (v : Word) :
    shadowGeometry (shadowWriteBytes m 0x100 (bytesOf [v])) = shadowGeometry m := by
  have word : ∀ x, x + 4 ≤ 0x100 ∨ 0x104 ≤ x →
      shadowWord (shadowWriteBytes m 0x100 (bytesOf [v])) x = shadowWord m x := fun x apart => shadowWord_beside (by simpa using apart)
  have panels : ∀ p : Fin 32, baseField (shadowWriteBytes m 0x100 (bytesOf [v])) (0x800 + 16 * p.val)
        = baseField m (0x800 + 16 * p.val)
      ∧ halfField (shadowWriteBytes m 0x100 (bytesOf [v])) (0x808 + 16 * p.val) = halfField m (0x808 + 16 * p.val)
      ∧ shadowWord (shadowWriteBytes m 0x100 (bytesOf [v])) (0x80C + 16 * p.val) = shadowWord m (0x80C + 16 * p.val) :=
    fun p => by
      unfold baseField halfField
      rw [word _ (.inr (by omega)), word _ (.inr (by omega)), word _ (.inr (by omega)), word _ (.inr (by omega))]
      exact ⟨rfl, rfl, rfl⟩
  have half : ∀ x, x + 4 ≤ 0x100 → halfField (shadowWriteBytes m 0x100 (bytesOf [v])) x = halfField m x := fun x below => by
    unfold halfField
    rw [word x (.inl below)]
  unfold shadowGeometry
  simp only [panels, half 0x00 (by decide), half 0x04 (by decide), half 0x08 (by decide), half 0x0C (by decide),
    half 0x10 (by decide), half 0x14 (by decide)]

theorem runCheck_congr {s v : State} (geometry : shadowGeometry v.shadow = shadowGeometry s.shadow)
    (base : v.baseStrap = s.baseStrap) (apertures : v.apertures = s.apertures) : runCheck v = runCheck s := by
  have panel : panelCheck v = panelCheck s := funext fun g => funext fun p => by
    unfold panelCheck controlBase
    rw [base]
  have aperture : apertureCheck v = apertureCheck s := funext fun g => funext fun src => by
    unfold apertureCheck
    rw [apertures]
  unfold runCheck
  rw [geometry, panel, aperture]

/-- What the latch and the mode change have made of `v`. -/
structure Latched (old new : Geometry) (i : Initiator) (q : Half) (v x : State) : Prop where
  rest : ∃ sy p, x = { v with
    mode := .run, geometry := new, holds := v.holds.map fun h : Held => { h with latched := true }, exposure := [], marking := []
    fillCount := Vector.replicate 64 0, channel0 := cancelled v.channel0, channel1 := cancelled v.channel1, sync := sy
    poster := p }
  sync : ∀ p : PanelId, x.sync[p] = latchedRecord old new p v.sync[p]
  flagged : ∀ p : PanelId, x.sync[p].state ≠ v.sync[p].state → .panel p ∈ x.poster.flags
  grows : ∃ t, PosterGrows ((List.finRange 32).flatMap (latchEvents old new v.sync)) v t
    ∧ PosterGrows [evModeChanged .setup .run i q] t x

theorem latchGeometry_latched {v : State} (i : Initiator) (q : Half) (none : v.next = none) (fills : FillCoherent v) :
    Latched v.geometry (shadowGeometry v.shadow) i q v
      (postEvent (evModeChanged .setup .run i q) (setMode .run (latchGeometry v))) := by
  obtain ⟨s1, s1Is⟩ : ∃ s1, s1 = { v with
    geometry := shadowGeometry v.shadow, holds := v.holds.map fun h : Held => { h with latched := true } } := ⟨_, rfl⟩
  have same : latchGeometry v = clearFills
      ((List.finRange 32).foldl (fun s p => latchSync v.geometry (shadowGeometry v.shadow) p s) s1) := by
    rw [s1Is]
    rfl
  have start : PosterGrows [] v s1 := by
    rw [s1Is]
    exact ⟨List.Subset.refl _, .of_stays rfl rfl rfl rfl⟩
  have latched := latchSyncs_latched v.geometry (shadowGeometry v.shadow) (List.finRange 32) (List.nodup_finRange 32)
    (s := s1) (by rw [s1Is]; exact none)
  rw [same]
  generalize (List.finRange 32).foldl (fun s p => latchSync v.geometry (shadowGeometry v.shadow) p s) s1 = t at latched ⊢
  obtain ⟨sy, p, rest⟩ := latched.rest
  have sync := latched.sync
  have flagged := latched.flagged
  have events := latched.grows
  have syncV : s1.sync = v.sync := by rw [s1Is]
  rw [syncV] at sync flagged events
  have fillsT : FillCoherent t := by
    rw [rest, s1Is]
    exact ⟨fills.exposure, fills.marking, fills.counts, fills.idle, fills.oneActive, fills.pending, fills.current⟩
  obtain ⟨p', cleared, quiet⟩ := clearFills_eq fillsT
  generalize clearFills t = c at cleared quiet ⊢
  have mode : PosterGrows [] c (setMode .run c) := ⟨Indicators.flags_flaggedIf _ _ _, .of_stays rfl rfl rfl rfl⟩
  obtain ⟨p'', modeIs⟩ : ∃ p, setMode .run c = { c with mode := .run, poster := p } := ⟨_, rfl⟩
  generalize setMode .run c = m at mode modeIs ⊢
  have told := postEvent_grows (evModeChanged .setup .run i q) m
  obtain ⟨p3, toldIs⟩ : ∃ p, postEvent (evModeChanged .setup .run i q) m = { m with poster := p } := ⟨_, rfl⟩
  generalize postEvent (evModeChanged .setup .run i q) m = x at told toldIs ⊢
  have after : x.sync = t.sync := by rw [toldIs, modeIs, cleared]
  have grown := (quiet.then mode).trans told
  refine ⟨⟨sy, p3, by rw [toldIs, modeIs, cleared, rest, s1Is]⟩, fun p => ?_, fun p changed => ?_, t, start.trans events,
    grown⟩
  · rw [after, sync, if_pos (List.mem_finRange p)]
  · rw [after] at changed
    exact grown.flags (flagged p changed)

theorem mem_latchEvents {sync : Vector SyncRecord 32} {old new : Geometry} {e : Event}
    (mem : e ∈ (List.finRange 32).flatMap (latchEvents old new sync)) : ∃ p : PanelId, isGrid old p = true ∧ isGrid new p = true
      ∧ panelMoved old new p = true ∧ sync[p].state ≠ .unsynced ∧ e = evPanelUnsynced p 2 sync[p].state sync[p].lastRead := by
  obtain ⟨p, -, mem⟩ := List.mem_flatMap.1 mem
  unfold latchEvents at mem
  split at mem
  · next due =>
    simp only [Bool.and_eq_true, bne_iff_ne] at due
    obtain ⟨⟨⟨before, after⟩, moved⟩, state⟩ := due
    exact ⟨p, before, after, moved, state, List.mem_singleton.1 mem⟩
  · cases mem

theorem panelMoved_iff (old new : Geometry) (p : PanelId) : panelMoved old new p = true
    ↔ ¬ (new.panels[p] = old.panels[p] ∧ new.panelHeight = old.panelHeight) := by
  unfold panelMoved
  rw [Bool.or_eq_true, bne_iff_ne, bne_iff_ne, Classical.not_and_iff_not_or_not, ne_comm, ne_comm (a := old.panelHeight)]

theorem latchedRecord_eq (old new : Geometry) (p : PanelId) (r : SyncRecord) : latchedRecord old new p r
    = if (isGrid old p = false ∧ isGrid new p = false) ∨ (isGrid old p = true ∧ isGrid new p = true
        ∧ new.panels[p] = old.panels[p] ∧ new.panelHeight = old.panelHeight) then r
      else { r with state := .unsynced } := by
  unfold latchedRecord resyncs
  cases isGrid old p <;> cases isGrid new p
  · simp
  · simp
  · simp
  · by_cases moved : panelMoved old new p = true
    · have not := (panelMoved_iff old new p).1 moved
      simp only [Bool.and_self, ↓reduceIte, moved, not, reduceCtorEq, and_self, or_self, true_and]
    · have same := Classical.not_not.1 (mt (panelMoved_iff old new p).2 moved)
      simp only [Bool.and_self, ↓reduceIte, moved, same, reduceCtorEq, and_self, or_true]

/-- A panel's record that changes state is one the latch reports, where it is a grid panel before and after. -/
theorem latchEvents_of_changed {old new : Geometry} {sync : Vector SyncRecord 32} {p : PanelId} (before : isGrid old p = true)
    (after : isGrid new p = true) (changed : (latchedRecord old new p sync[p]).state ≠ sync[p].state) :
    evPanelUnsynced p 2 sync[p].state sync[p].lastRead ∈ (List.finRange 32).flatMap (latchEvents old new sync) := by
  refine List.mem_flatMap.2 ⟨p, List.mem_finRange p, ?_⟩
  have moved : panelMoved old new p = true ∧ sync[p].state ≠ .unsynced := by
    unfold latchedRecord resyncs at changed
    rw [before, after] at changed
    cases moved : panelMoved old new p with
    | false =>
      rw [moved] at changed
      exact absurd rfl changed
    | true =>
      rw [moved] at changed
      exact ⟨rfl, Ne.symm changed⟩
  unfold latchEvents
  rw [before, after, moved.1, bne_iff_ne.2 moved.2]
  exact List.mem_singleton.2 rfl

theorem latchedRecord_changed {old new : Geometry} {p : PanelId} {r : SyncRecord} (before : isGrid old p = true)
    (after : isGrid new p = true) (moved : panelMoved old new p = true) (state : r.state ≠ .unsynced) :
    (latchedRecord old new p r).state ≠ r.state := by
  unfold latchedRecord resyncs
  rw [before, after, moved]
  exact Ne.symm state

theorem latchEvents_few (old new : Geometry) (sync : Vector SyncRecord 32) (l : List PanelId) :
    (l.flatMap (latchEvents old new sync)).length ≤ l.length := by
  induction l with
  | nil => exact Nat.zero_le 0
  | cons p l ih =>
    have one : (latchEvents old new sync p).length ≤ 1 := by
      unfold latchEvents
      split
      · exact Nat.le_refl 1
      · exact Nat.zero_le 1
    rw [List.flatMap_cons, List.length_append, List.length_cons]
    omega

/-- What is reported at a RUN command: the panels that the latch makes UNSYNCED, and of other kinds the mode and failovers. -/
theorem run_reported {old new : Geometry} {i : Initiator} {q : Half} {v x u : State} (latched : Latched old new i q v x)
    (awaited : Awaited x u) :
    (∀ p : PanelId, isGrid old p = true → isGrid new p = true → u.sync[p].state ≠ v.sync[p].state →
      eventEnabled v.shadow 5 = true → unread v ≤ 223 → ∃ e ∈ newEvents v u, e.kind = 5 ∧ e.detail = 2
        ∧ e.subject = halfNat (p.val + 256 * syncCode v.sync[p].state) ∧ e.extra = v.sync[p].lastRead)
    ∧ ∀ e ∈ newEvents v u, e.kind = 5 → ∃ p : PanelId, isGrid old p = true ∧ isGrid new p = true
        ∧ u.sync[p].state ≠ v.sync[p].state ∧ e.subject = halfNat (p.val + 256 * syncCode v.sync[p].state) := by
  obtain ⟨t, first, mode⟩ := latched.grows
  obtain ⟨es, kinds, others⟩ := awaited.grows
  obtain ⟨_, _, _, _, _, _, _, rest⟩ := awaited.rest
  have sync : ∀ p : PanelId, u.sync[p] = latchedRecord old new p v.sync[p] := fun p => by
    rw [rest]
    exact latched.sync p
  refine ⟨fun p before after changed enabled room => ?_, fun e mem kind => ?_⟩
  · rw [sync] at changed
    have few := latchEvents_few old new v.sync (List.finRange 32)
    rw [List.length_finRange] at few
    obtain ⟨r, r_mem, tells⟩ := first.hands.new_of (by omega) (latchEvents_of_changed before after changed) enabled
    obtain ⟨kind, detail, subject, -, -, extra⟩ := of_bare tells
    refine ⟨r, ?_, kind, detail, subject, extra⟩
    have later := mode.hands.trans others.hands
    obtain ⟨-, -, rs, records⟩ := first.hands
    obtain ⟨-, -, rs', records'⟩ := later
    rw [newEvents_of records.events] at r_mem
    rw [newEvents_of (records'.events.trans (by rw [records.events, List.append_assoc]))]
    exact List.mem_append_left rs' r_mem
  · obtain ⟨k, k_mem, -, tells⟩ := ((first.trans mode).trans others).hands.of_new mem
    obtain ⟨kindK, -, subject, -⟩ := of_bare tells
    rw [kindK] at kind
    rcases List.mem_append.1 k_mem with early | late
    · rcases List.mem_append.1 early with latch | changed
      · obtain ⟨p, before, after, moved, state, rfl⟩ := mem_latchEvents latch
        refine ⟨p, before, after, ?_, subject⟩
        rw [sync]
        exact latchedRecord_changed before after moved state
      · obtain rfl := List.mem_singleton.1 changed
        exact absurd (show byteNat 20 = 5 from kind) (by decide)
    · rcases kinds k late with is | is | is <;> rw [is] at kind <;> exact absurd kind (by decide)

/-- The note that a latch leaves on the held writes changes nothing of which initiator can be served. -/
theorem readyInitiators_latched {s u : State} (lines : u.lines = s.lines)
    (holds : u.holds = s.holds.map fun h => { h with latched := true }) (wait : u.passWait = s.passWait) :
    readyInitiators u = readyInitiators s := by
  simp [readyInitiators, takingBlocked, lines, holds, wait, Function.comp_def]

/-- Settles O27: the checks read what the command leaves alone; the latch, the mode change and the sources' fresh start are
described one by one. -/
theorem runCommandDecided : Obligations.RunCommandDecided := by
  intro s f q writes setup
  obtain ⟨v, vIs⟩ : ∃ v, v = written s 0x100 [commandWord q 2] := ⟨_, rfl⟩
  have geometry : shadowGeometry v.shadow = shadowGeometry s.shadow := by
    rw [vIs]
    exact geometry_written s.shadow (commandWord q 2)
  have checks : runCheck v = runCheck s := runCheck_congr geometry (by rw [vIs]; rfl) (by rw [vIs]; rfl)
  have setupV : v.mode = .setup := by rw [vIs]; exact setup
  have is : ∀ n, commandAction f.initiator (2 : Byte).toNat q n v = commandRun f.initiator q v := fun _ => rfl
  refine ⟨fun code a b refused => ?_, fun new coherent fills newIs passes => ?_⟩
  · rw [← vIs]
    refine congrArg Host.Outcome.next (command_quiet writes vIs (fun n => ?_) (by rw [vIs]; exact ⟨rfl, rfl, rfl⟩))
    rw [is, commandRun, setupV, checks, (runCheck_iff.1 code a b).2 refused]
  · subst newIs
    have noNext := next_none coherent (not_flying_in_setup coherent setup)
    have none : v.next = none := by
      rw [vIs]
      exact noNext
    have fillsV : FillCoherent v := by
      rw [vIs]
      exact ⟨fills.exposure, fills.marking, fills.counts, fills.idle, fills.oneActive, fills.pending, fills.current⟩
    have latched := latchGeometry_latched f.initiator q none fillsV
    have action : commandRun f.initiator q v
        = (awaitAll (postEvent (evModeChanged .setup .run f.initiator q) (setMode .run (latchGeometry v))), .done, noDetail) := by
      rw [commandRun, setupV, checks, runCheck_iff.2.2 passes]
    generalize postEvent (evModeChanged .setup .run f.initiator q) (setMode .run (latchGeometry v)) = x at latched action
    have awaited := awaitAll_awaited x
    generalize awaitAll x = u at awaited action
    have oldV : v.geometry = s.geometry := by rw [vIs]; rfl
    have syncV : v.sync = s.sync := by rw [vIs]; rfl
    rw [geometry, oldV] at latched
    obtain ⟨mask, ring⟩ := Sources.command_written (s := s) (ws := [commandWord q 2]) (Nat.le_succ 1)
    rw [← vIs] at mask ring
    obtain ⟨reported, only⟩ := run_reported latched awaited
    obtain ⟨sy, p, changed⟩ := latched.rest
    obtain ⟨a, n, g, p', m, c, i, rest⟩ := awaited.rest
    have sync : u.sync = x.sync := by rw [rest]
    rw [syncV, sync] at reported only
    have newIs : newEvents v u = newEvents s u := by
      rw [vIs]
      rfl
    rw [newIs] at reported only
    have settled : Settled (commandEnds q 2 .done noDetail u) := by
      refine (readyInitiators_latched (s := s) ?_ ?_ ?_).trans writes.settled
      · show u.lines = s.lines
        rw [rest, changed, vIs]
        rfl
      · show u.holds = _
        rw [rest, changed, vIs]
        rfl
      · show u.passWait = s.passWait
        rw [rest, changed, vIs]
        rfl
    have arrived := arrive_command (q := q) (code := 2) writes
    rw [commandDone, ← vIs, is, action, serve_of_settled (settled_enterPass settled _)] at arrived
    have record : ∀ p : PanelId, u.sync[p] = latchedRecord s.geometry (shadowGeometry s.shadow) p s.sync[p] := fun p => by
      rw [sync, latched.sync, syncV]
    obtain ⟨_, -, told⟩ := awaited.grows
    refine ⟨u, congrArg Host.Outcome.next arrived, ?_, ?_, fun p => ?_, fun p differs => ?_,
      fun p before after differs enabled room => ?_, fun e mem kind => ?_, ?_, ?_, ?_, ?_, ?_, ?_, ?_, fun w => ?_,
      fun src => ?_, ?_, ?_, ?_, ?_, ?_, ?_, ?_⟩
    · rw [rest, changed]
    · rw [rest, changed]
    · rw [record, latchedRecord_eq]
    · rw [sync] at differs
      exact told.flags (latched.flagged p (by rw [syncV]; exact differs))
    · rw [sync] at differs
      exact reported p before after differs ((mask 5).trans enabled) (by rw [ring]; exact room)
    · rw [sync]
      exact only e mem kind
    · rw [rest, changed, vIs]
      rfl
    · rw [rest, changed]
    · rw [rest, changed]
    · rw [rest, changed]
      rfl
    · rw [rest, changed]
      rfl
    · rw [rest, changed]
      rfl
    · rw [rest, changed]
      rfl
    · rw [rest, changed]
      exact Vector.getElem_replicate w.isLt
    · rw [awaited.cadence, changed, vIs]
      rfl
    · rw [rest, changed, vIs]
      rfl
    · rw [rest, changed, vIs]
      constructor <;> rfl
    all_goals (rw [rest, changed, vIs]; rfl)

end Sys2Proof.RunCommands
/-! PROOFS of O12 and O45: what a switch of one panel does, at its retrace event and at its sync limit. -/

namespace Sys2Proof.PanelSwitches

open Sys2Proof Sys2Proof.Machine Sys2Proof.Steps Sys2Proof.Events Sys2Proof.Fills Sys2Proof.Frames Sys2Proof.Commits

/-! ## The entries a switch forms -/

theorem cut_exact (s : State) (p : PanelId) (epoch : Half) (w : WindowId) (win : Window) : CutIsExact s p epoch w win := by
  have none := cutToPanel_none_iff s.geometry p win.dx win.dy win.dw win.dh
  unfold CutIsExact resolveEntry
  by_cases unused : win.state = .unused
  · rw [if_pos unused]
    exact ⟨⟨fun _ => .inl unused, fun _ => rfl⟩, fun e made => nomatch made⟩
  · rw [if_neg unused, Option.map_eq_none_iff, none]
    refine ⟨?_, fun e made => ?_⟩
    · simp only [unused, false_or, ← inPlacement_iff, Bool.not_eq_true]
    · obtain ⟨⟨x, y, wd, ht⟩, cut, rfl⟩ := Option.map_eq_some_iff.1 made
      obtain ⟨wide, right, high, low, pixels⟩ := cutToPanel_some cut
      refine ⟨rfl, rfl, rfl, rfl, wide, right, high, low, fun ox oy hx hy => ?_⟩
      rw [inPlacement_iff]
      exact pixels ox oy hx hy

theorem resolveEntries_eq (s : State) (l : Layout) (p : PanelId) : resolveEntries s l p = formedEntries s l p := by
  unfold resolveEntries formedEntries
  congr 1
  funext w
  split
  · rw [List.filterMap_cons, List.filterMap_cons, List.filterMap_nil]
    cases resolveEntry s p l.epoch w s.active.records[w].window <;>
      cases resolveEntry s p l.epoch w l.records[w].window <;> rfl
  · rfl

theorem fits_iff (s : State) (es : List ResolveEntry) : entriesFit s es = true ↔ Fits s es := by
  rw [entriesFit_iff]
  exact and_congr Iff.rfl (forall_congr' fun w => Decidable.or_iff_not_imp_left)

/-! ## Entries join and leave -/

theorem raiseCauses_hands (es : List ResolveEntry) (s : State) : Hands [] s (es.foldl raiseCause s) :=
  foldl_keeps (R := Hands []) Hands.refl Hands.quiet_trans raiseCause (fun s e => by
    unfold raiseCause
    split <;> exact .of_stays rfl rfl rfl rfl) es s

theorem lowerCauses_ring (es : List ResolveEntry) (s : State) : RingStays s (lowerCauses es s) :=
  foldl_keeps RingStays.refl RingStays.trans (fun s e => lowerCause e s) (fun s e => lowerCause_ring e s) es s

/-- What joining entries does (R121). -/
structure EntriesJoined (es : List ResolveEntry) (s t : State) : Prop where
  exposure : t.exposure = s.exposure ++ es
  counts : ∀ w : WindowId, t.fillCount[w] = s.fillCount[w] + causedBy w es
  marking : t.marking = s.marking
  channel1 : t.channel1 = s.channel1
  hands : Hands [] s t

theorem entryJoined_channel1 (s : State) : (entryJoined .zero s).channel1 = s.channel1 := by
  unfold entryJoined moveChannel
  split
  · split <;> rfl
  · rfl

theorem hands_entryJoined (c : ChannelId) (s : State) : Hands [] s (entryJoined c s) := by
  obtain ⟨_, _, _, _, grows⟩ := entryJoined_eq c s
  exact grows.hands

theorem joinExposure_joined (es : List ResolveEntry) (s : State) : EntriesJoined es s (joinExposure es s) := by
  rw [joinExposure_eq]
  split
  · next none =>
    subst none
    exact ⟨(List.append_nil _).symm, fun w => rfl, rfl, rfl, .refl s⟩
  · obtain ⟨x, xIs⟩ : ∃ x, x = { s with exposure := s.exposure ++ es } := ⟨_, rfl⟩
    have start : Hands [] s x := by
      rw [xIs]
      exact .of_stays rfl rfl rfl rfl
    have counts := raiseCauses_count es x
    have lists := raiseCauses_stays es x
    have raised := raiseCauses_hands es x
    rw [← xIs]
    generalize es.foldl raiseCause x = y at counts lists raised ⊢
    have joined := entryJoined_channels .zero y
    have last := entryJoined_channel1 y
    have quiet := hands_entryJoined .zero y
    generalize entryJoined .zero y = t at joined last quiet ⊢
    refine ⟨?_, fun w => ?_, ?_, ?_, (start.trans raised).trans quiet⟩
    · rw [joined.exposure, lists.exposure, xIs]
    · rw [joined.fillCount, counts, xIs]
      rfl
    · rw [joined.marking, lists.marking, xIs]
    · rw [last, lists.channel1, xIs]

/-- The waiting entries of a panel, which a whole-panel fallback removes (R122). -/
def withdrawn (p : PanelId) (s : State) : List ResolveEntry := (waitingExposure s).filter fun e => e.panel == p

theorem withdrawPanel_hands (p : PanelId) (s : State) : Hands [] s (withdrawPanel p s) := by
  have start : Hands [] s { s with exposure := keptExposure p s } := .of_stays rfl rfl rfl rfl
  exact start.trans (hands_fill (lowerCauses_only _ _) (lowerCauses_ring _ _))

theorem withdrawPanel_counts (p : PanelId) (s : State) (w : WindowId) :
    (withdrawPanel p s).fillCount[w] = s.fillCount[w] - causedBy w (withdrawn p s) :=
  lowerCauses_count _ { s with exposure := keptExposure p s } w

/-! ## The Fill Engine's part of a switch -/

/-- What the Fill Engine does at a switch of a panel to `l` (R121 to R123). -/
structure FillsTaken (p : PanelId) (l : Layout) (s t : State) : Prop where
  marking : t.marking = s.marking
  channel1 : t.channel1 = s.channel1
  fits : Fits s (formedEntries s l p) → t.exposure = s.exposure ++ formedEntries s l p
    ∧ (∀ w : WindowId, t.fillCount[w] = s.fillCount[w] + causedBy w (formedEntries s l p)) ∧ Hands [] s t
  counts : ¬ Fits s (formedEntries s l p) →
    ∀ w : WindowId, t.fillCount[w] = s.fillCount[w] - causedBy w (withdrawn p s)
  fallback : ¬ Fits s (formedEntries s l p) → (keptExposure p s).length < 128 →
    t.exposure = keptExposure p s ++ [wholePanelEntry p l.epoch s]
      ∧ Hands [evFillFallback p (formedEntries s l p).length (withdrawn p s).length] s t
  lost : ¬ Fits s (formedEntries s l p) → 128 ≤ (keptExposure p s).length → t.exposure = keptExposure p s
    ∧ Hands [evFillLost .resolve p.val (formedEntries s l p).length] s t

theorem fillAtSwitch_taken (p : PanelId) (l : Layout) (s : State) : FillsTaken p l s (fillAtSwitch p l s) := by
  unfold fillAtSwitch
  dsimp only
  rw [resolveEntries_eq]
  by_cases fit : Fits s (formedEntries s l p)
  · have joined := joinExposure_joined (formedEntries s l p) s
    rw [if_pos ((fits_iff s _).2 fit)]
    exact ⟨joined.marking, joined.channel1, fun _ => ⟨joined.exposure, joined.counts, joined.hands⟩,
      fun not => absurd fit not, fun not => absurd fit not, fun not => absurd fit not⟩
  · rw [if_neg fun yes => fit ((fits_iff s _).1 yes), wholePanelFallback_eq]
    have stays := withdrawPanel_stays p s
    have counts := withdrawPanel_counts p s
    have quiet := withdrawPanel_hands p s
    have capacity : Config.exposureCapacity = 128 := rfl
    rw [capacity, stays.exposure]
    generalize withdrawPanel p s = y at stays counts quiet ⊢
    by_cases room : (keptExposure p s).length < 128
    · have joined := joinExposure_joined [wholePanelEntry p l.epoch s] y
      rw [if_pos room]
      generalize joinExposure [wholePanelEntry p l.epoch s] y = x at joined ⊢
      have told := hands_postEvent (evFillFallback p (formedEntries s l p).length (withdrawn p s).length) x
      refine ⟨joined.marking.trans stays.marking, joined.channel1.trans stays.channel1, fun yes => absurd yes fit,
        fun _ w => ?_, fun _ _ => ⟨?_, (quiet.quiet_trans joined.hands).quiet_trans told⟩, fun _ full => by omega⟩
      · exact (joined.counts w).trans (counts w)
      · exact joined.exposure.trans (by rw [stays.exposure])
    · rw [if_neg room]
      have told := hands_postEvent (evFillLost .resolve p.val (formedEntries s l p).length) y
      exact ⟨stays.marking, stays.channel1, fun yes => absurd yes fit, fun _ => counts, fun _ less => absurd less room,
        fun _ _ => ⟨stays.exposure, quiet.quiet_trans told⟩⟩

/-! ## The records that a walk admits -/

/-- From `s` to `t` records leave the queue or join it with their panel's epoch, and nothing is reported. -/
structure Admits (s t : State) : Prop where
  panelEpoch : t.panelEpoch = s.panelEpoch
  hands : Hands [] s t
  queue : ∀ r ∈ t.queue, r ∈ s.queue ∨ r.epoch = s.panelEpoch[r.panel]

theorem Admits.refl (s : State) : Admits s s := ⟨rfl, .refl s, fun _ mem => .inl mem⟩

theorem Admits.trans {s t u : State} (h : Admits s t) (k : Admits t u) : Admits s u :=
  ⟨k.panelEpoch.trans h.panelEpoch, h.hands.trans k.hands, fun r mem => (k.queue r mem).elim (h.queue r) fun now =>
    .inr (by rw [← h.panelEpoch]; exact now)⟩

theorem enqueue_admits {r : Record} {s : State} (now : r.epoch = s.panelEpoch[r.panel]) : Admits s (enqueue r s) :=
  ⟨rfl, .of_stays rfl rfl rfl rfl, fun q mem => (List.mem_append.1 mem).imp id fun last => by
    obtain rfl := List.mem_singleton.1 last
    exact now⟩

theorem finishAperture_admits (t : Txn) (src : SourceId) (s : State) : Admits s (finishAperture t src s) := by
  have elsewhere : ∀ {u : State}, u.panelEpoch = s.panelEpoch → Hands [] s u → u.queue = s.queue → Admits s u :=
    fun epochs hands queue => ⟨epochs, hands, fun r mem => .inl (queue ▸ mem)⟩
  unfold finishAperture
  split
  · exact elsewhere rfl (.of_stays rfl rfl rfl rfl) rfl
  · unfold enterPass
    split <;> exact elsewhere rfl (.of_stays rfl rfl rfl rfl) rfl

theorem nextRecord_epoch {s : State} {run : Run} {start p : Position} {r : Record}
    (made : nextRecord s run start = some (r, p)) : r.epoch = s.panelEpoch[r.panel] :=
  (Traffic.recordsAreSound s run start p r made).2.1

theorem offeredAtTurn_epoch {s : State} {h : Held} {r : Record} {p : Position} (offered : offeredAtTurn s h = some (r, p)) :
    r.epoch = s.panelEpoch[r.panel] := by
  unfold offeredAtTurn at offered
  split at offered
  · next inDate =>
    obtain ⟨rfl, -⟩ := Prod.mk.inj (Option.some.inj offered)
    exact inDate.1
  · exact nextRecord_epoch offered

theorem expandFrom_admits (fuel : Nat) (run : Run) (place : Position) (s : State) :
    Admits s (expandFrom fuel run place s).1 := by
  induction fuel generalizing place s with
  | zero => exact .refl s
  | succ fuel ih =>
    unfold expandFrom
    split
    · exact .refl s
    · next r p made =>
      split
      · exact (enqueue_admits (nextRecord_epoch made)).trans (ih _ _)
      · exact .refl s

theorem walkTurns_admits (l : List Held) (s : State) : Admits s (walkTurns l s).1 := by
  induction l generalizing s with
  | nil => exact .refl s
  | cons h rest ih =>
    unfold walkTurns
    split
    · exact (finishAperture_admits _ _ s).trans (ih _)
    · next r p offered =>
      split
      · exact (enqueue_admits (offeredAtTurn_epoch offered)).trans (ih _)
      · exact ih s

theorem walkContinue_admits (l : List (Held × Bool)) (s : State) : Admits s (walkContinue l s).1 := by
  induction l generalizing s with
  | nil => exact .refl s
  | cons turn rest ih =>
    obtain ⟨h, admitted⟩ := turn
    cases admitted with
    | false => exact ih s
    | true =>
      have expanded := expandFrom_admits (Config.shareLimit + 1) h.run (placeAfter h.waiting h.place) s
      unfold walkContinue expandStretch
      split
      · next t ended =>
        rw [ended] at expanded
        exact (expanded.trans (finishAperture_admits _ _ t)).trans (ih _)
      · next t r p ended =>
        rw [ended] at expanded
        exact expanded.trans (ih t)

theorem walk_admits_inDate (s : State) : Admits s (walk s) := by
  have admits := (walkTurns_admits s.holds s).trans (walkContinue_admits (walkTurns s.holds s).2 (walkTurns s.holds s).1)
  have list : ∀ (x : State) (l : List Held), Admits x { x with holds := l } := fun x l =>
    ⟨rfl, .of_stays rfl rfl rfl rfl, fun _ mem => .inl mem⟩
  exact admits.trans (list _ _)

/-- After a purge the records of the panel have the epoch it now has (R97). -/
theorem purge_epoch {p : PanelId} {epoch : Half} {s : State} (now : s.panelEpoch[p] = epoch) :
    Hands [] s (purge p epoch s) ∧ ∀ r ∈ (purge p epoch s).queue, r.panel = p → r.epoch = epoch := by
  obtain ⟨x, start, epochs, kept⟩ : ∃ x, purge p epoch s = walk x ∧ x.panelEpoch = s.panelEpoch ∧ Hands [] s x
      ∧ ∀ r ∈ x.queue, r.panel = p → r.epoch = epoch := by
    refine ⟨_, rfl, ?_, ?_, ?_⟩
    · split <;> rfl
    · split
      · exact .refl s
      · exact .of_stays rfl rfl rfl rfl
    · intro r mem here
      have listed : r ∈ s.queue.filter fun r => !(r.panel == p && r.epoch != epoch) := by
        split at mem
        · next same =>
          have all := List.filter_eq_self.1 ((List.filter_sublist (p := fun r : Record => !(r.panel == p && r.epoch != epoch))
            (l := s.queue)).eq_of_length same)
          exact List.mem_filter.2 ⟨mem, all r mem⟩
        · exact mem
      have passes := (List.mem_filter.1 listed).2
      rw [here, beq_self_eq_true, Bool.true_and, Bool.not_eq_true', bne_eq_false_iff_eq] at passes
      exact passes
  obtain ⟨hands, kept⟩ := kept
  have admits := walk_admits_inDate x
  rw [start]
  refine ⟨hands.trans admits.hands, fun r mem here => ?_⟩
  rcases admits.queue r mem with before | inDate
  · exact kept r before here
  · subst here
    rw [inDate, epochs, now]

/-! ## A switch of a panel -/

/-- From `s` to `z` nothing changes that the Fill Engine's part of a switch reads, but events may be handed over. -/
structure SameFills (s z : State) : Prop where
  exposure : z.exposure = s.exposure
  fillCount : z.fillCount = s.fillCount
  channel0 : z.channel0 = s.channel0
  active : z.active = s.active
  changed : z.commit.changed = s.commit.changed
  geometry : z.geometry = s.geometry

theorem SameFills.trans {s t u : State} (h : SameFills s t) (k : SameFills t u) : SameFills s u :=
  ⟨k.exposure.trans h.exposure, k.fillCount.trans h.fillCount, k.channel0.trans h.channel0, k.active.trans h.active,
    k.changed.trans h.changed, k.geometry.trans h.geometry⟩

theorem SameFills.formed {s z : State} (h : SameFills s z) (l : Layout) (p : PanelId) :
    formedEntries z l p = formedEntries s l p := by
  unfold formedEntries resolveEntry
  rw [h.changed, h.active, h.geometry]

theorem SameFills.fits {s z : State} (h : SameFills s z) (es : List ResolveEntry) : Fits z es ↔ Fits s es := by
  unfold Fits
  rw [h.exposure, h.fillCount]

theorem SameFills.waiting {s z : State} (h : SameFills s z) : waitingExposure z = waitingExposure s := by
  unfold waitingExposure
  rw [h.channel0, h.exposure]

/-- The records of a stretch of events are among those of a longer one. -/
theorem newEvents_within {s y t u : State} {es fs gs : List Event} (before : Hands fs s y) (now : Hands es y t)
    (after : Hands gs t u) {r : EventRecord} (mem : r ∈ newEvents y t) : r ∈ newEvents s u := by
  obtain ⟨-, -, as, first⟩ := before
  obtain ⟨-, -, bs, second⟩ := now
  obtain ⟨-, -, cs, third⟩ := after
  rw [newEvents_of second.events] at mem
  have whole : u.poster.events = s.poster.events ++ (as ++ bs ++ cs) := by
    rw [third.events, second.events, first.events]
    simp only [List.append_assoc]
  rw [newEvents_of whole]
  exact List.mem_append_left cs (List.mem_append_right as mem)

/-- The parts into which the exposure list falls at a fallback are told by its length and the channel. -/
theorem exposure_parts {s : State} {current waiting : List ResolveEntry} (split : s.exposure = current ++ waiting)
    (length : current.length = if s.channel0.current then min 1 s.exposure.length else 0) :
    current = (if s.channel0.current then s.exposure.take 1 else []) ∧ waiting = waitingExposure s := by
  have parts := waiting_split s
  have same : current.length = (if s.channel0.current then s.exposure.take 1 else []).length := by
    rw [length]
    split
    · rw [List.length_take]
    · rfl
  exact List.append_inj (split.symm.trans parts.symm) same

/-- The Fill Engine's part of a switch, seen from a state before it and one after it. -/
theorem switchFills_of {p : PanelId} {l : Layout} {s y t u : State} {fs gs : List Event} (same : SameFills s y)
    (before : Hands fs s y) (few : fs.length ≤ 1) (taken : FillsTaken p l y t) (after : Hands gs t u)
    (exposure : u.exposure = t.exposure) (fillCount : u.fillCount = t.fillCount) : SwitchFills p l s u := by
  have formed := same.formed l p
  have waits := same.waiting
  have capacity : unread s ≤ 253 → unread y + 1 ≤ 255 := fun room => by
    have more := unread_le before
    omega
  have counted : withdrawn p y = (waitingExposure s).filter fun e => e.panel == p := by
    unfold withdrawn
    rw [waits]
  refine ⟨fun w win => cut_exact s p l.epoch w win, ?_, ?_⟩
  · rintro es rfl fit
    obtain ⟨joined, counts, -⟩ := taken.fits (by rw [formed]; exact (same.fits _).2 fit)
    rw [exposure, fillCount, joined, formed, same.exposure]
    refine ⟨rfl, fun w => ?_⟩
    rw [counts, formed, same.fillCount]
  · rintro es current waiting kept removed rfl noFit split length rfl rfl
    obtain ⟨rfl, rfl⟩ := exposure_parts split length
    have not : ¬ Fits y (formedEntries y l p) := by
      rw [formed, same.fits]
      exact noFit
    have keptIs : keptExposure p y
        = (if s.channel0.current then s.exposure.take 1 else []) ++ (waitingExposure s).filter fun e => e.panel != p := by
      unfold keptExposure
      rw [waits, same.channel0, same.exposure]
      rfl
    rw [exposure, fillCount, ← keptIs, ← counted]
    refine ⟨fun w => ?_, fun room => ?_, fun full => ?_⟩
    · rw [taken.counts not, same.fillCount]
    · obtain ⟨list, told⟩ := taken.fallback not room
      refine ⟨?_, fun enabled few => ?_⟩
      · rw [list, wholePanelEntry, same.geometry]
      · obtain ⟨r, mem, tells⟩ := told.new_of (capacity few) List.mem_cons_self (by rw [before.shadow]; exact enabled)
        obtain ⟨kind, -, subject, -, -, extra⟩ := of_bare tells
        refine ⟨r, newEvents_within before told after mem, kind, subject, ?_⟩
        rw [extra, formed]
        rfl
    · obtain ⟨list, told⟩ := taken.lost not full
      refine ⟨list, fun enabled few => ?_⟩
      obtain ⟨r, mem, tells⟩ := told.new_of (capacity few) List.mem_cons_self (by rw [before.shadow]; exact enabled)
      obtain ⟨kind, detail, subject, -, -, extra⟩ := of_bare tells
      refine ⟨r, newEvents_within before told after mem, kind, detail, subject, ?_⟩
      rw [extra, formed]
      rfl

/-- What completion leaves of the Fill Engine, and what it reports. -/
structure FillsStay (s u : State) : Prop where
  exposure : u.exposure = s.exposure
  fillCount : u.fillCount = s.fillCount
  marking : u.marking = s.marking
  channel1 : u.channel1 = s.channel1
  hands : ∃ es, Hands es s u

theorem FillsStay.of_hands {s u : State} {es : List Event} (exposure : u.exposure = s.exposure)
    (fillCount : u.fillCount = s.fillCount) (marking : u.marking = s.marking) (channel1 : u.channel1 = s.channel1)
    (hands : Hands es s u) : FillsStay s u := ⟨exposure, fillCount, marking, channel1, es, hands⟩

theorem FillsStay.refl (s : State) : FillsStay s s := .of_hands rfl rfl rfl rfl (.refl s)

theorem FillsStay.trans {s t u : State} (h : FillsStay s t) (k : FillsStay t u) : FillsStay s u := by
  obtain ⟨es, first⟩ := h.hands
  obtain ⟨fs, second⟩ := k.hands
  exact ⟨k.exposure.trans h.exposure, k.fillCount.trans h.fillCount, k.marking.trans h.marking, k.channel1.trans h.channel1,
    es ++ fs, first.trans second⟩

theorem completeCommit_stays (end_ : CommitState) (outcome : CommandOutcome) (s : State) :
    FillsStay s (completeCommit end_ outcome s) := by
  have flags : ∀ (items : List PostItem) (s : State), FillsStay s (flagAll items s) := fun items s =>
    foldl_keeps FillsStay.refl FillsStay.trans (fun s i => flag i s)
      (fun _ _ => .of_hands rfl rfl rfl rfl (.of_stays rfl rfl rfl rfl)) items s
  have panels : ∀ (epoch : Half) (s : State),
      FillsStay s ((List.finRange 32).foldl (fun s p => setPanelLayout p .active epoch s) s) := fun epoch s =>
    foldl_keeps FillsStay.refl FillsStay.trans (fun s p => setPanelLayout p .active epoch s)
      (fun _ _ => .of_hands rfl rfl rfl rfl (.of_stays rfl rfl rfl rfl)) (List.finRange 32) s
  have replaced : ∀ (l : Layout) (s : State), FillsStay s { s with active := l, next := none } := fun _ _ =>
    .of_hands rfl rfl rfl rfl (.of_stays rfl rfl rfl rfl)
  have counted : ∀ (c : Commit) (s : State), FillsStay s (setCommit c s) := fun _ _ =>
    .of_hands rfl rfl rfl rfl (.of_stays rfl rfl rfl rfl)
  have told : ∀ (e : Event) (s : State), FillsStay s (postEvent e s) := fun e s =>
    .of_hands rfl rfl rfl rfl (hands_postEvent e s)
  have cleared : ∀ (c : Commit) (s : State), FillsStay s { s with commit := c } := fun _ _ =>
    .of_hands rfl rfl rfl rfl (.of_stays rfl rfl rfl rfl)
  unfold completeCommit
  split
  · exact .refl s
  · next l _ =>
    generalize (List.filter _ _).map PostItem.image = images
    dsimp only
    exact (((((replaced l s).trans (flags images _)).trans (panels l.epoch _)).trans (counted _ _)).trans (told _ _)).trans
      (cleared _ _)

/-- What a switch on time does to a panel that is due (R110, R114). -/
structure SwitchTaken (p : PanelId) (l : Layout) (z u : State) : Prop where
  only : SwitchOnly z u
  marking : u.marking = z.marking
  channel1 : u.channel1 = z.channel1
  epoch : u.panelEpoch[p] = l.epoch
  late : u.commit.late = z.commit.late
  fills : ∀ (s : State) (fs : List Event), SameFills s z → Hands fs s z → fs.length ≤ 1 → SwitchFills p l s u
  more : 1 < z.commit.remaining → u.selection[p] = .next ∧ u.commit.switched[p] = true
    ∧ u.commit.remaining = z.commit.remaining - 1 ∧ u.commit.state = .inFlight
    ∧ (∀ r ∈ u.queue, r.panel = p → r.epoch = l.epoch)
    ∧ ∀ q : PanelId, q ≠ p → u.selection[q] = z.selection[q] ∧ u.panelEpoch[q] = z.panelEpoch[q]
  last : z.commit.remaining = 1 → u.commit.state = .done ∧ u.commit.remaining = 0 ∧ u.next = none ∧ u.active = l
    ∧ ∀ q : PanelId, u.selection[q] = .active ∧ u.panelEpoch[q] = l.epoch

/-- The steps of a switch, up to the commit's count. -/
theorem movePanel_steps (p : PanelId) (l : Layout) (z : State) : ∃ y t, SameFills z y ∧ Hands [] z y ∧ FillsTaken p l y t
    ∧ y.marking = z.marking ∧ y.channel1 = z.channel1 ∧ FillsStay t (movePanel p l z)
    ∧ ∀ r ∈ (movePanel p l z).queue, r.panel = p → r.epoch = l.epoch := by
  obtain ⟨x, xIs⟩ : ∃ x, x = setPanelLayout p .next l.epoch z := ⟨_, rfl⟩
  have start : Hands [] z x := by
    rw [xIs]
    exact .of_stays rfl rfl rfl rfl
  have layout : SameFills z x := by
    rw [xIs]
    exact ⟨rfl, rfl, rfl, rfl, rfl, rfl⟩
  have now : x.panelEpoch[p] = l.epoch := by
    rw [xIs]
    exact put_self z.panelEpoch p l.epoch
  have others : x.marking = z.marking ∧ x.channel1 = z.channel1 := by
    rw [xIs]
    exact ⟨rfl, rfl⟩
  obtain ⟨quiet, queue⟩ := purge_epoch now
  have walked := purge_only p l.epoch x
  have same : movePanel p l z = setCommit
      { (fillAtSwitch p l (purge p l.epoch x)).commit with
        switched := put (fillAtSwitch p l (purge p l.epoch x)).commit.switched p true
        remaining := (fillAtSwitch p l (purge p l.epoch x)).commit.remaining - 1 }
      (fillAtSwitch p l (purge p l.epoch x)) := by
    rw [xIs]
    rfl
  rw [same]
  generalize purge p l.epoch x = y at quiet queue walked ⊢
  have taken := fillAtSwitch_taken p l y
  have only := fillAtSwitch_only p l y
  generalize fillAtSwitch p l y = t at taken only ⊢
  refine ⟨y, t, layout.trans ⟨walked.exposure, walked.fillCount, walked.channel0, walked.active, by rw [walked.commit],
    walked.geometry⟩, start.trans quiet, taken, walked.marking.trans others.1, walked.channel1.trans others.2,
    .of_hands rfl rfl rfl rfl (.of_stays rfl rfl rfl rfl), fun r mem here => queue r ?_ here⟩
  rw [← only.queue]
  exact mem

theorem switchPanel_taken {p : PanelId} {l : Layout} {z : State} (next : z.next = some l) (due : canSwitch z p = true) :
    SwitchTaken p l z (switchOnTime p z) := by
  obtain ⟨flying, grid, notYet⟩ := (canSwitch_iff z p).1 due
  have only := switchPanel_only .done .done p z
  have switches := switchPanel_switches .done .done p z
  unfold switchOnTime
  generalize switchPanel .done .done p z = u at only switches ⊢
  obtain ⟨y, t, same, quiet, taken, marking, channel1, counted, queue⟩ := movePanel_steps p l z
  have moved := movePanel_moved p l z
  have assemble : ∀ {u : State}, FillsStay t u → u.marking = z.marking ∧ u.channel1 = z.channel1
      ∧ ∀ (s : State) (fs : List Event), SameFills s z → Hands fs s z → fs.length ≤ 1 → SwitchFills p l s u := fun stays => by
    obtain ⟨gs, hands⟩ := stays.hands
    exact ⟨(stays.marking.trans taken.marking).trans marking, (stays.channel1.trans taken.channel1).trans channel1,
      fun s fs before told few => switchFills_of (before.trans same) (told.trans_quiet quiet) few taken hands stays.exposure
        stays.fillCount⟩
  have left : (movePanel p l z).commit.remaining = z.commit.remaining - 1 := by rw [moved.commit]
  cases switches with
  | notDue why =>
    rcases why with none | notDue
    · rw [next] at none
      cases none
    · rw [due] at notDue
      cases notDue
  | moves l' exists_ _ more =>
    obtain rfl : l = l' := Option.some.inj (next.symm.trans exists_)
    obtain ⟨marks, channels, fills⟩ := assemble counted
    refine ⟨only, marks, channels, ?_, by rw [moved.commit], fills, fun _ => ⟨?_, ?_, left, ?_, queue, fun q other => ?_⟩,
      fun last => by omega⟩
    · rw [moved.panelEpoch, put_self]
    · rw [moved.selection, put_self]
    · rw [moved.commit]
      exact put_self z.commit.switched p true
    · rw [moved.commit]
      exact flying
    · rw [moved.selection, moved.panelEpoch, put_of_ne _ _ _ _ (Ne.symm other), put_of_ne _ _ _ _ (Ne.symm other)]
      exact ⟨rfl, rfl⟩
  | completes l' exists_ _ last =>
    obtain rfl : l = l' := Option.some.inj (next.symm.trans exists_)
    have ended := completeCommit_ended (end_ := .done) (outcome := .done) (moved.next.trans exists_)
    obtain ⟨marks, channels, fills⟩ := assemble (counted.trans (completeCommit_stays .done .done (movePanel p l z)))
    refine ⟨only, marks, channels, (ended.panels p).2, by rw [ended.commit, moved.commit], fills, fun _ => by omega, fun _ =>
      ⟨by rw [ended.commit], by rw [ended.commit], ended.next, ended.active, ended.panels⟩⟩

/-! ## A retrace event (O12) -/

theorem isGrid_of_scanout {s : State} {t : Txn} {p : PanelId} (cls : classify s t = .scanoutRead p) :
    isGrid s.geometry p = true := by
  unfold classify at cls
  split at cls
  · split at cls
    · cases cls
    · split at cls <;> cases cls
  · split at cls
    · next found =>
      obtain rfl := TrafficClass.scanoutRead.inj cls
      exact (isGrid_gridPanels s.geometry _).1 (List.mem_of_find?_eq_some found)
    · cases cls

theorem untouched_trans {s t u : State} (h : Untouched s t) (k : Untouched t u) : Untouched s u :=
  ⟨k.wallTime.trans h.wallTime, k.ponrst.trans h.ponrst, k.baseStrap.trans h.baseStrap, k.prioStrap.trans h.prioStrap,
    k.owners.trans h.owners, k.tags.trans h.tags, k.exhaustion.trans h.exhaustion, k.lastGranted.trans h.lastGranted,
    k.storeOut.trans h.storeOut⟩

/-- A panel's sync record has been set, and at most one event handed over, before a switch of the panel is offered. -/
structure SyncSet (p : PanelId) (r : SyncRecord) (s z : State) : Prop where
  rest : ∃ q, z = { s with sync := put s.sync p r, poster := q }
  hands : ∃ fs, fs.length ≤ 1 ∧ Hands fs s z

/-- A switch that follows the setting of the panel's sync record, seen from before both. -/
structure SwitchedAfterSync (p : PanelId) (r : SyncRecord) (l : Layout) (s u : State) : Prop where
  sync : u.sync = put s.sync p r
  untouched : Untouched s u
  mode : u.mode = s.mode
  geometry : u.geometry = s.geometry
  apertures : u.apertures = s.apertures
  cadence : u.cadence = s.cadence
  fills : SwitchFills p l s u
  marking : u.marking = s.marking
  channel1 : u.channel1 = s.channel1

theorem switchedAfterSync {p : PanelId} {r : SyncRecord} {l : Layout} {s z : State} (set_ : SyncSet p r s z)
    (flying : s.commit.state = .inFlight) (notYet : s.commit.switched[p] = false) (grid : isGrid s.geometry p = true)
    (next : s.next = some l) :
    SwitchedAfterSync p r l s (switchOnTime p z) ∧ SwitchTaken p l z (switchOnTime p z) := by
  obtain ⟨q, rest⟩ := set_.rest
  obtain ⟨fs, few, hands⟩ := set_.hands
  have due : canSwitch z p = true := by
    rw [rest]
    exact (canSwitch_iff _ p).2 ⟨flying, grid, notYet⟩
  have taken := switchPanel_taken (z := z) (l := l) (by rw [rest]; exact next) due
  have only := taken.only
  have untouched : Untouched s z := by
    rw [rest]
    constructor <;> rfl
  have same : SameFills s z := by
    rw [rest]
    exact ⟨rfl, rfl, rfl, rfl, rfl, rfl⟩
  refine ⟨⟨?_, untouched_trans untouched (ModeChanges.untouched_of_switch only), ?_, ?_, ?_, ?_,
    taken.fills s fs same hands few, ?_, ?_⟩, taken⟩
  · rw [only.sync, rest]
  · rw [only.mode, rest]
  · rw [only.geometry, rest]
  · rw [only.apertures, rest]
  · rw [only.cadence, rest]
  · rw [taken.marking, rest]
  · rw [taken.channel1, rest]

theorem setSync_hands (p : PanelId) (r : SyncRecord) (s : State) : Hands [] s (setSync p r s) := .of_stays rfl rfl rfl rfl

theorem setSync_set (p : PanelId) (r : SyncRecord) (s : State) : SyncSet p r s (setSync p r s) :=
  ⟨⟨_, rfl⟩, [], Nat.zero_le 1, setSync_hands p r s⟩

/-- Settles O12: the retrace event switches the panel where it is due. -/
theorem retraceEventSwitchesPanel : Obligations.RetraceEventSwitchesPanel := by
  intro s t p arrives coherent scanning line last
  have retrace : syncAfterRead s.sync[p].state (isLineZero s p t) (isLastLineStart s p t) = (.waiting, true) := by
    rw [scanning, line, last]
    rfl
  have set_ := setSync_set p { state := .waiting, lastRead := s.wallTime } s
  have snooped : snoop p t s = switchOnTime p (setSync p { state := .waiting, lastRead := s.wallTime } s) := by
    unfold snoop
    dsimp only
    rw [retrace]
    rfl
  have arrived := Traffic.arrive_scanout arrives
  rw [snooped] at arrived
  generalize setSync p { state := .waiting, lastRead := s.wallTime } s = z at set_ arrived
  obtain ⟨q, rest⟩ := set_.rest
  have answers : exec (.scanoutRead t) s = .next (serve (enterPass t (switchOnTime p z))) :=
    congrArg Host.Outcome.next arrived
  refine ⟨fun l flying notYet next => ?_, fun notDue => ?_⟩
  · obtain ⟨after, taken⟩ := switchedAfterSync set_ flying notYet (isGrid_of_scanout arrives.cls) next
    refine ⟨switchOnTime p z, answers, after.sync, after.untouched, after.mode, after.geometry, after.apertures,
      after.cadence, after.fills, after.marking, after.channel1, fun several => ?_, fun one => ?_⟩
    · obtain ⟨selection, switched, remaining, state, queue, others⟩ := taken.more (by rw [rest]; exact several)
      refine ⟨selection, taken.epoch, switched, ?_, state, queue, fun q other => ?_⟩
      · rw [remaining, rest]
      · have panel := others q other
        rw [rest] at panel ⊢
        exact panel
    · exact taken.last (by rw [rest]; exact one)
  · have same : switchOnTime p z = z := Traffic.switchPanel_notDue (by rw [rest]; exact notDue)
    have passed : ∀ u : State, (enterPass t u).commit = u.commit ∧ (enterPass t u).next = u.next
        ∧ (enterPass t u).active = u.active ∧ (enterPass t u).selection = u.selection
        ∧ (enterPass t u).panelEpoch = u.panelEpoch ∧ (enterPass t u).queue = u.queue
        ∧ (enterPass t u).exposure = u.exposure ∧ (enterPass t u).marking = u.marking
        ∧ (enterPass t u).fillCount = u.fillCount := fun u => by
      unfold enterPass
      split <;> exact ⟨rfl, rfl, rfl, rfl, rfl, rfl, rfl, rfl, rfl⟩
    rw [same, Traffic.serve_enterPass arrives.settled t (by rw [rest]) (by rw [rest]) (by rw [rest])] at answers
    have kept := passed z
    refine ⟨enterPass t z, answers, ?_⟩
    rw [rest] at kept ⊢
    exact kept

/-! ## The sync limit (O45) -/

theorem reported_set (p : PanelId) (e : Event) (r : SyncRecord) (s : State) :
    SyncSet p r s (postEvent e (setSync p r s)) :=
  ⟨⟨_, rfl⟩, [e], Nat.le_refl 1,
    (setSync_hands p r s).quiet_trans (hands_postEvent e (setSync p r s))⟩

/-- Settles O45: the panel becomes UNSYNCED and is offered its switch. -/
theorem syncLimitUnsyncsPanel : Obligations.SyncLimitUnsyncsPanel := by
  intro s p service
  refine ⟨fun notDue => congrArg Host.Outcome.next (ModeChanges.inService_notDue service (by rw [notDue]; rfl)),
    fun grid synced limit => ?_⟩
  have due : syncLimitReached s p = true := by
    unfold syncLimitReached
    rw [grid, bne_iff_ne.2 synced]
    exact decide_eq_true limit
  have unsynced : becomeUnsynced p 1 s = switchOnTime p (postEvent (evPanelUnsynced p 1 s.sync[p].state s.sync[p].lastRead)
      (setSync p { s.sync[p] with state := .unsynced } s)) := if_neg synced
  refine ⟨fun notDue => ?_, fun l coherent flying notYet next => ?_⟩
  · have same : becomeUnsynced p 1 s = postEvent (evPanelUnsynced p 1 s.sync[p].state s.sync[p].lastRead)
        (setSync p { s.sync[p] with state := .unsynced } s) := unsynced.trans (Traffic.switchPanel_notDue notDue)
    have leaves := StorePort.inService_leaves service
      (f := fun s => if syncLimitReached s p then becomeUnsynced p 1 s else s)
    rw [if_pos due, same] at leaves
    have differs : (s.sync[p].state != SyncState.unsynced) = true := bne_iff_ne.2 synced
    have record : setSync p { s.sync[p] with state := .unsynced } s = { s with
        sync := put s.sync p { s.sync[p] with state := .unsynced }, poster := flaggedIf true (.panel p) s.poster } := by
      unfold setSync flagIf
      rw [differs]
    rw [record] at leaves
    exact congrArg Host.Outcome.next (leaves rfl rfl rfl)
  · have serves := StorePort.inService_serves service
      (fun s => if syncLimitReached s p then becomeUnsynced p 1 s else s)
    rw [if_pos due, unsynced] at serves
    have set_ := reported_set p (evPanelUnsynced p 1 s.sync[p].state s.sync[p].lastRead)
      { s.sync[p] with state := .unsynced } s
    generalize postEvent (evPanelUnsynced p 1 s.sync[p].state s.sync[p].lastRead)
      (setSync p { s.sync[p] with state := .unsynced } s) = z at serves set_
    obtain ⟨q, rest⟩ := set_.rest
    obtain ⟨after, taken⟩ := switchedAfterSync set_ flying notYet grid next
    refine ⟨switchOnTime p z, congrArg Host.Outcome.next serves, after.sync, after.untouched, after.mode, after.geometry,
      after.apertures, after.cadence, after.fills, taken.epoch, ?_, fun several => ?_, fun one => ?_⟩
    · rw [taken.late, rest]
    · obtain ⟨selection, -, remaining, -⟩ := taken.more (by rw [rest]; exact several)
      exact ⟨selection, by rw [remaining, rest]⟩
    · obtain ⟨state, -, noNext, active, -⟩ := taken.last (by rw [rest]; exact one)
      exact ⟨state, by rw [active], noNext⟩

end Sys2Proof.PanelSwitches
